-- ==== Sys2Proof/Word.lean ====
section
/-! DEFINITION. The word types and the names instructions are built from (spec/00_scope.md R6, R11, R12; spec/30_encoding.md R52 to R55, R66). -/

namespace Sys2Proof

/-- A value of one 8-bit register or one memory byte (R5 `XLEN8`). -/
abbrev Byte := BitVec 8

/-- A value of a pair, of SP or of PC, and a memory address (R5 `XLEN16`, `ADDR_BITS`). -/
abbrev Word := BitVec 16

/-- The seven registers an instruction can name (R14, R54). F has no code and is not among them. -/
inductive Reg where
  | b | c | d | e | h | l | a
deriving DecidableEq, Repr

/-- The three pairs an instruction can name (R16, R18). -/
inductive Pair where
  | bc | de | hl
deriving DecidableEq, Repr

/-- The four jump conditions (R55, R91). -/
inductive Cond where
  | nz | z | nc | c
deriving DecidableEq, Repr

/-- GL's `LoadTarget`: where an 8-bit load puts its byte (R66). -/
inductive LoadTarget where
  | reg (r : Reg)
  | memAt (p : Pair)
deriving DecidableEq, Repr

/-- GL's `LoadSource`: where an 8-bit load takes its byte from (R66). -/
inductive LoadSource where
  | reg (r : Reg)
  | imm8
  | memAt (p : Pair)
deriving DecidableEq, Repr

/-- The target of a 16-bit load (R66). -/
inductive LoadTarget16 where
  | pair (p : Pair)
  | sp
deriving DecidableEq, Repr

/-- The source of a 16-bit load (R66). -/
inductive LoadSource16 where
  | pair (p : Pair)
  | imm16
deriving DecidableEq, Repr

/-- The tagged value decoding yields (R66). Its types allow more combinations than have an opcode;
`Form.admitted` (WellFormed.lean) says which exist. For a jump, `none` is R66's `Always`. -/
inductive Form where
  | add (r : Reg)
  | sub (r : Reg)
  | inc8 (r : Reg)
  | dec8 (r : Reg)
  | inc16 (p : Pair)
  | dec16 (p : Pair)
  | ld8 (t : LoadTarget) (v : LoadSource)
  | ld16 (t : LoadTarget16) (v : LoadSource16)
  | jp (cc : Option Cond)
  | jr (cc : Option Cond)
deriving DecidableEq, Repr

/-- The three instruction formats (R52). -/
inductive Format where
  | op | opN8 | opN16
deriving DecidableEq, Repr

/-- The operand bytes that stand after an opcode in memory: none, one byte (`n8` or `e8`), or the
16-bit `n16` (R52, R56, R57). They are no part of `Instr` (R66): the handler fetches them. -/
inductive Operand where
  | none
  | byte (n8 : Byte)
  | word (n16 : Word)
deriving DecidableEq, Repr

/-- The length in bytes of an instruction of each format (R52). -/
def Format.length : Format → Nat
  | .op => 1
  | .opN8 => 2
  | .opN16 => 3

/-- The format of a form (R52, the Format column of R58). -/
def Form.format : Form → Format
  | .ld8 _ .imm8 => .opN8
  | .jr _ => .opN8
  | .ld16 _ .imm16 => .opN16
  | .jp _ => .opN16
  | .add _ | .sub _ | .inc8 _ | .dec8 _ | .inc16 _ | .dec16 _ => .op
  | .ld8 _ (.reg _) | .ld8 _ (.memAt _) | .ld16 _ (.pair _) => .op

end Sys2Proof
end

