-- ==== Sys2Proof/Syntax.lean ====
section
/-! DEFINITION. The instructions: one constructor per row of spec/opcode_table.json (124 rows, spec/30_encoding.md R58), the form each row spells (R66), and the text form of R64. -/

namespace Sys2Proof

/-- One constructor per supported opcode byte (R58). An instruction carries no immediate: decoding reads
the opcode byte only and the handler fetches the operand bytes (R59, R66; log entry 11). -/
inductive Instr where
  /-- `LD BC,n16`, byte 0x01, rule R87. -/
  | ldBcN16
  /-- `LD (BC),A`, byte 0x02, rule R85. -/
  | ldMemBcA
  /-- `INC BC`, byte 0x03, rule R72. -/
  | incBc
  /-- `INC B`, byte 0x04, rule R70. -/
  | incB
  /-- `DEC B`, byte 0x05, rule R71. -/
  | decB
  /-- `LD B,n8`, byte 0x06, rule R79. -/
  | ldBN8
  /-- `LD A,(BC)`, byte 0x0A, rule R83. -/
  | ldAMemBc
  /-- `DEC BC`, byte 0x0B, rule R73. -/
  | decBc
  /-- `INC C`, byte 0x0C, rule R70. -/
  | incC
  /-- `DEC C`, byte 0x0D, rule R71. -/
  | decC
  /-- `LD C,n8`, byte 0x0E, rule R79. -/
  | ldCN8
  /-- `LD DE,n16`, byte 0x11, rule R87. -/
  | ldDeN16
  /-- `LD (DE),A`, byte 0x12, rule R86. -/
  | ldMemDeA
  /-- `INC DE`, byte 0x13, rule R72. -/
  | incDe
  /-- `INC D`, byte 0x14, rule R70. -/
  | incD
  /-- `DEC D`, byte 0x15, rule R71. -/
  | decD
  /-- `LD D,n8`, byte 0x16, rule R79. -/
  | ldDN8
  /-- `JR e8`, byte 0x18, rule R94. -/
  | jrE8
  /-- `LD A,(DE)`, byte 0x1A, rule R84. -/
  | ldAMemDe
  /-- `DEC DE`, byte 0x1B, rule R73. -/
  | decDe
  /-- `INC E`, byte 0x1C, rule R70. -/
  | incE
  /-- `DEC E`, byte 0x1D, rule R71. -/
  | decE
  /-- `LD E,n8`, byte 0x1E, rule R79. -/
  | ldEN8
  /-- `JR NZ,e8`, byte 0x20, rule R95. -/
  | jrNzE8
  /-- `LD HL,n16`, byte 0x21, rule R87. -/
  | ldHlN16
  /-- `INC HL`, byte 0x23, rule R72. -/
  | incHl
  /-- `INC H`, byte 0x24, rule R70. -/
  | incH
  /-- `DEC H`, byte 0x25, rule R71. -/
  | decH
  /-- `LD H,n8`, byte 0x26, rule R79. -/
  | ldHN8
  /-- `JR Z,e8`, byte 0x28, rule R95. -/
  | jrZE8
  /-- `DEC HL`, byte 0x2B, rule R73. -/
  | decHl
  /-- `INC L`, byte 0x2C, rule R70. -/
  | incL
  /-- `DEC L`, byte 0x2D, rule R71. -/
  | decL
  /-- `LD L,n8`, byte 0x2E, rule R79. -/
  | ldLN8
  /-- `JR NC,e8`, byte 0x30, rule R95. -/
  | jrNcE8
  /-- `LD SP,n16`, byte 0x31, rule R88. -/
  | ldSpN16
  /-- `LD (HL),n8`, byte 0x36, rule R82. -/
  | ldMemHlN8
  /-- `JR C,e8`, byte 0x38, rule R95. -/
  | jrCE8
  /-- `INC A`, byte 0x3C, rule R70. -/
  | incA
  /-- `DEC A`, byte 0x3D, rule R71. -/
  | decA
  /-- `LD A,n8`, byte 0x3E, rule R79. -/
  | ldAN8
  /-- `LD B,B`, byte 0x40, rule R78. -/
  | ldBB
  /-- `LD B,C`, byte 0x41, rule R78. -/
  | ldBC
  /-- `LD B,D`, byte 0x42, rule R78. -/
  | ldBD
  /-- `LD B,E`, byte 0x43, rule R78. -/
  | ldBE
  /-- `LD B,H`, byte 0x44, rule R78. -/
  | ldBH
  /-- `LD B,L`, byte 0x45, rule R78. -/
  | ldBL
  /-- `LD B,(HL)`, byte 0x46, rule R80. -/
  | ldBMemHl
  /-- `LD B,A`, byte 0x47, rule R78. -/
  | ldBA
  /-- `LD C,B`, byte 0x48, rule R78. -/
  | ldCB
  /-- `LD C,C`, byte 0x49, rule R78. -/
  | ldCC
  /-- `LD C,D`, byte 0x4A, rule R78. -/
  | ldCD
  /-- `LD C,E`, byte 0x4B, rule R78. -/
  | ldCE
  /-- `LD C,H`, byte 0x4C, rule R78. -/
  | ldCH
  /-- `LD C,L`, byte 0x4D, rule R78. -/
  | ldCL
  /-- `LD C,(HL)`, byte 0x4E, rule R80. -/
  | ldCMemHl
  /-- `LD C,A`, byte 0x4F, rule R78. -/
  | ldCA
  /-- `LD D,B`, byte 0x50, rule R78. -/
  | ldDB
  /-- `LD D,C`, byte 0x51, rule R78. -/
  | ldDC
  /-- `LD D,D`, byte 0x52, rule R78. -/
  | ldDD
  /-- `LD D,E`, byte 0x53, rule R78. -/
  | ldDE
  /-- `LD D,H`, byte 0x54, rule R78. -/
  | ldDH
  /-- `LD D,L`, byte 0x55, rule R78. -/
  | ldDL
  /-- `LD D,(HL)`, byte 0x56, rule R80. -/
  | ldDMemHl
  /-- `LD D,A`, byte 0x57, rule R78. -/
  | ldDA
  /-- `LD E,B`, byte 0x58, rule R78. -/
  | ldEB
  /-- `LD E,C`, byte 0x59, rule R78. -/
  | ldEC
  /-- `LD E,D`, byte 0x5A, rule R78. -/
  | ldED
  /-- `LD E,E`, byte 0x5B, rule R78. -/
  | ldEE
  /-- `LD E,H`, byte 0x5C, rule R78. -/
  | ldEH
  /-- `LD E,L`, byte 0x5D, rule R78. -/
  | ldEL
  /-- `LD E,(HL)`, byte 0x5E, rule R80. -/
  | ldEMemHl
  /-- `LD E,A`, byte 0x5F, rule R78. -/
  | ldEA
  /-- `LD H,B`, byte 0x60, rule R78. -/
  | ldHB
  /-- `LD H,C`, byte 0x61, rule R78. -/
  | ldHC
  /-- `LD H,D`, byte 0x62, rule R78. -/
  | ldHD
  /-- `LD H,E`, byte 0x63, rule R78. -/
  | ldHE
  /-- `LD H,H`, byte 0x64, rule R78. -/
  | ldHH
  /-- `LD H,L`, byte 0x65, rule R78. -/
  | ldHL
  /-- `LD H,(HL)`, byte 0x66, rule R80. -/
  | ldHMemHl
  /-- `LD H,A`, byte 0x67, rule R78. -/
  | ldHA
  /-- `LD L,B`, byte 0x68, rule R78. -/
  | ldLB
  /-- `LD L,C`, byte 0x69, rule R78. -/
  | ldLC
  /-- `LD L,D`, byte 0x6A, rule R78. -/
  | ldLD
  /-- `LD L,E`, byte 0x6B, rule R78. -/
  | ldLE
  /-- `LD L,H`, byte 0x6C, rule R78. -/
  | ldLH
  /-- `LD L,L`, byte 0x6D, rule R78. -/
  | ldLL
  /-- `LD L,(HL)`, byte 0x6E, rule R80. -/
  | ldLMemHl
  /-- `LD L,A`, byte 0x6F, rule R78. -/
  | ldLA
  /-- `LD (HL),B`, byte 0x70, rule R81. -/
  | ldMemHlB
  /-- `LD (HL),C`, byte 0x71, rule R81. -/
  | ldMemHlC
  /-- `LD (HL),D`, byte 0x72, rule R81. -/
  | ldMemHlD
  /-- `LD (HL),E`, byte 0x73, rule R81. -/
  | ldMemHlE
  /-- `LD (HL),H`, byte 0x74, rule R81. -/
  | ldMemHlH
  /-- `LD (HL),L`, byte 0x75, rule R81. -/
  | ldMemHlL
  /-- `LD (HL),A`, byte 0x77, rule R81. -/
  | ldMemHlA
  /-- `LD A,B`, byte 0x78, rule R78. -/
  | ldAB
  /-- `LD A,C`, byte 0x79, rule R78. -/
  | ldAC
  /-- `LD A,D`, byte 0x7A, rule R78. -/
  | ldAD
  /-- `LD A,E`, byte 0x7B, rule R78. -/
  | ldAE
  /-- `LD A,H`, byte 0x7C, rule R78. -/
  | ldAH
  /-- `LD A,L`, byte 0x7D, rule R78. -/
  | ldAL
  /-- `LD A,(HL)`, byte 0x7E, rule R80. -/
  | ldAMemHl
  /-- `LD A,A`, byte 0x7F, rule R78. -/
  | ldAA
  /-- `ADD A,B`, byte 0x80, rule R68. -/
  | addAB
  /-- `ADD A,C`, byte 0x81, rule R68. -/
  | addAC
  /-- `ADD A,D`, byte 0x82, rule R68. -/
  | addAD
  /-- `ADD A,E`, byte 0x83, rule R68. -/
  | addAE
  /-- `ADD A,H`, byte 0x84, rule R68. -/
  | addAH
  /-- `ADD A,L`, byte 0x85, rule R68. -/
  | addAL
  /-- `ADD A,A`, byte 0x87, rule R68. -/
  | addAA
  /-- `SUB B`, byte 0x90, rule R69. -/
  | subB
  /-- `SUB C`, byte 0x91, rule R69. -/
  | subC
  /-- `SUB D`, byte 0x92, rule R69. -/
  | subD
  /-- `SUB E`, byte 0x93, rule R69. -/
  | subE
  /-- `SUB H`, byte 0x94, rule R69. -/
  | subH
  /-- `SUB L`, byte 0x95, rule R69. -/
  | subL
  /-- `SUB A`, byte 0x97, rule R69. -/
  | subA
  /-- `JP NZ,n16`, byte 0xC2, rule R93. -/
  | jpNzN16
  /-- `JP n16`, byte 0xC3, rule R92. -/
  | jpN16
  /-- `JP Z,n16`, byte 0xCA, rule R93. -/
  | jpZN16
  /-- `JP NC,n16`, byte 0xD2, rule R93. -/
  | jpNcN16
  /-- `JP C,n16`, byte 0xDA, rule R93. -/
  | jpCN16
  /-- `LD SP,HL`, byte 0xF9, rule R89. -/
  | ldSpHl
deriving DecidableEq, Repr

/-- The tagged value each row stands for (R66): the operation and operands its entry in R58 gives. -/
def Instr.form : Instr → Form
  | .ldBcN16 => .ld16 (.pair .bc) .imm16
  | .ldMemBcA => .ld8 (.memAt .bc) (.reg .a)
  | .incBc => .inc16 .bc
  | .incB => .inc8 .b
  | .decB => .dec8 .b
  | .ldBN8 => .ld8 (.reg .b) .imm8
  | .ldAMemBc => .ld8 (.reg .a) (.memAt .bc)
  | .decBc => .dec16 .bc
  | .incC => .inc8 .c
  | .decC => .dec8 .c
  | .ldCN8 => .ld8 (.reg .c) .imm8
  | .ldDeN16 => .ld16 (.pair .de) .imm16
  | .ldMemDeA => .ld8 (.memAt .de) (.reg .a)
  | .incDe => .inc16 .de
  | .incD => .inc8 .d
  | .decD => .dec8 .d
  | .ldDN8 => .ld8 (.reg .d) .imm8
  | .jrE8 => .jr none
  | .ldAMemDe => .ld8 (.reg .a) (.memAt .de)
  | .decDe => .dec16 .de
  | .incE => .inc8 .e
  | .decE => .dec8 .e
  | .ldEN8 => .ld8 (.reg .e) .imm8
  | .jrNzE8 => .jr (some .nz)
  | .ldHlN16 => .ld16 (.pair .hl) .imm16
  | .incHl => .inc16 .hl
  | .incH => .inc8 .h
  | .decH => .dec8 .h
  | .ldHN8 => .ld8 (.reg .h) .imm8
  | .jrZE8 => .jr (some .z)
  | .decHl => .dec16 .hl
  | .incL => .inc8 .l
  | .decL => .dec8 .l
  | .ldLN8 => .ld8 (.reg .l) .imm8
  | .jrNcE8 => .jr (some .nc)
  | .ldSpN16 => .ld16 .sp .imm16
  | .ldMemHlN8 => .ld8 (.memAt .hl) .imm8
  | .jrCE8 => .jr (some .c)
  | .incA => .inc8 .a
  | .decA => .dec8 .a
  | .ldAN8 => .ld8 (.reg .a) .imm8
  | .ldBB => .ld8 (.reg .b) (.reg .b)
  | .ldBC => .ld8 (.reg .b) (.reg .c)
  | .ldBD => .ld8 (.reg .b) (.reg .d)
  | .ldBE => .ld8 (.reg .b) (.reg .e)
  | .ldBH => .ld8 (.reg .b) (.reg .h)
  | .ldBL => .ld8 (.reg .b) (.reg .l)
  | .ldBMemHl => .ld8 (.reg .b) (.memAt .hl)
  | .ldBA => .ld8 (.reg .b) (.reg .a)
  | .ldCB => .ld8 (.reg .c) (.reg .b)
  | .ldCC => .ld8 (.reg .c) (.reg .c)
  | .ldCD => .ld8 (.reg .c) (.reg .d)
  | .ldCE => .ld8 (.reg .c) (.reg .e)
  | .ldCH => .ld8 (.reg .c) (.reg .h)
  | .ldCL => .ld8 (.reg .c) (.reg .l)
  | .ldCMemHl => .ld8 (.reg .c) (.memAt .hl)
  | .ldCA => .ld8 (.reg .c) (.reg .a)
  | .ldDB => .ld8 (.reg .d) (.reg .b)
  | .ldDC => .ld8 (.reg .d) (.reg .c)
  | .ldDD => .ld8 (.reg .d) (.reg .d)
  | .ldDE => .ld8 (.reg .d) (.reg .e)
  | .ldDH => .ld8 (.reg .d) (.reg .h)
  | .ldDL => .ld8 (.reg .d) (.reg .l)
  | .ldDMemHl => .ld8 (.reg .d) (.memAt .hl)
  | .ldDA => .ld8 (.reg .d) (.reg .a)
  | .ldEB => .ld8 (.reg .e) (.reg .b)
  | .ldEC => .ld8 (.reg .e) (.reg .c)
  | .ldED => .ld8 (.reg .e) (.reg .d)
  | .ldEE => .ld8 (.reg .e) (.reg .e)
  | .ldEH => .ld8 (.reg .e) (.reg .h)
  | .ldEL => .ld8 (.reg .e) (.reg .l)
  | .ldEMemHl => .ld8 (.reg .e) (.memAt .hl)
  | .ldEA => .ld8 (.reg .e) (.reg .a)
  | .ldHB => .ld8 (.reg .h) (.reg .b)
  | .ldHC => .ld8 (.reg .h) (.reg .c)
  | .ldHD => .ld8 (.reg .h) (.reg .d)
  | .ldHE => .ld8 (.reg .h) (.reg .e)
  | .ldHH => .ld8 (.reg .h) (.reg .h)
  | .ldHL => .ld8 (.reg .h) (.reg .l)
  | .ldHMemHl => .ld8 (.reg .h) (.memAt .hl)
  | .ldHA => .ld8 (.reg .h) (.reg .a)
  | .ldLB => .ld8 (.reg .l) (.reg .b)
  | .ldLC => .ld8 (.reg .l) (.reg .c)
  | .ldLD => .ld8 (.reg .l) (.reg .d)
  | .ldLE => .ld8 (.reg .l) (.reg .e)
  | .ldLH => .ld8 (.reg .l) (.reg .h)
  | .ldLL => .ld8 (.reg .l) (.reg .l)
  | .ldLMemHl => .ld8 (.reg .l) (.memAt .hl)
  | .ldLA => .ld8 (.reg .l) (.reg .a)
  | .ldMemHlB => .ld8 (.memAt .hl) (.reg .b)
  | .ldMemHlC => .ld8 (.memAt .hl) (.reg .c)
  | .ldMemHlD => .ld8 (.memAt .hl) (.reg .d)
  | .ldMemHlE => .ld8 (.memAt .hl) (.reg .e)
  | .ldMemHlH => .ld8 (.memAt .hl) (.reg .h)
  | .ldMemHlL => .ld8 (.memAt .hl) (.reg .l)
  | .ldMemHlA => .ld8 (.memAt .hl) (.reg .a)
  | .ldAB => .ld8 (.reg .a) (.reg .b)
  | .ldAC => .ld8 (.reg .a) (.reg .c)
  | .ldAD => .ld8 (.reg .a) (.reg .d)
  | .ldAE => .ld8 (.reg .a) (.reg .e)
  | .ldAH => .ld8 (.reg .a) (.reg .h)
  | .ldAL => .ld8 (.reg .a) (.reg .l)
  | .ldAMemHl => .ld8 (.reg .a) (.memAt .hl)
  | .ldAA => .ld8 (.reg .a) (.reg .a)
  | .addAB => .add .b
  | .addAC => .add .c
  | .addAD => .add .d
  | .addAE => .add .e
  | .addAH => .add .h
  | .addAL => .add .l
  | .addAA => .add .a
  | .subB => .sub .b
  | .subC => .sub .c
  | .subD => .sub .d
  | .subE => .sub .e
  | .subH => .sub .h
  | .subL => .sub .l
  | .subA => .sub .a
  | .jpNzN16 => .jp (some .nz)
  | .jpN16 => .jp none
  | .jpZN16 => .jp (some .z)
  | .jpNcN16 => .jp (some .nc)
  | .jpCN16 => .jp (some .c)
  | .ldSpHl => .ld16 .sp (.pair .hl)

/-- The format of an instruction (R52). -/
def Instr.format (i : Instr) : Format := i.form.format

/-- The length of an instruction in bytes, a function of the opcode alone (R52, R59). -/
def Instr.length (i : Instr) : Nat := i.format.length

/-- Is it a jump (the `JP` and `JR` rows, R92 to R95)? -/
def Form.isJump : Form → Bool
  | .jp _ | .jr _ => true
  | _ => false

/-- Is it one of the 8-bit arithmetic forms, the only ones that write the flags (R24)? -/
def Form.isArith8 : Form → Bool
  | .add _ | .sub _ | .inc8 _ | .dec8 _ => true
  | _ => false

/-- Does it write data memory (R42)? -/
def Form.isStore : Form → Bool
  | .ld8 (.memAt _) _ => true
  | _ => false

/-- Is the register one of the two halves of the pair (R16)? -/
def Pair.has : Pair → Reg → Bool
  | .bc, .b | .bc, .c | .de, .d | .de, .e | .hl, .h | .hl, .l => true
  | _, _ => false

/-- Does the form write the register (the "Written by" column of R14)? -/
def Form.writesReg : Form → Reg → Bool
  | .add _, q | .sub _, q => q == .a
  | .inc8 r, q | .dec8 r, q => q == r
  | .inc16 p, q | .dec16 p, q => p.has q
  | .ld8 (.reg r) _, q => q == r
  | .ld16 (.pair p) _, q => p.has q
  | _, _ => false

/-- The `ADD A,r` rows by their operand (R68). -/
def Instr.ofAdd : Reg → Instr
  | .b => .addAB
  | .c => .addAC
  | .d => .addAD
  | .e => .addAE
  | .h => .addAH
  | .l => .addAL
  | .a => .addAA

/-- The `SUB r` rows by their operand (R69). -/
def Instr.ofSub : Reg → Instr
  | .b => .subB
  | .c => .subC
  | .d => .subD
  | .e => .subE
  | .h => .subH
  | .l => .subL
  | .a => .subA

/-- The `INC r` rows by their operand (R70). -/
def Instr.ofInc : Reg → Instr
  | .b => .incB
  | .c => .incC
  | .d => .incD
  | .e => .incE
  | .h => .incH
  | .l => .incL
  | .a => .incA

/-- The `DEC r` rows by their operand (R71). -/
def Instr.ofDec : Reg → Instr
  | .b => .decB
  | .c => .decC
  | .d => .decD
  | .e => .decE
  | .h => .decH
  | .l => .decL
  | .a => .decA

/-- The `INC rr` rows by their operand (R72). -/
def Instr.ofIncPair : Pair → Instr
  | .bc => .incBc
  | .de => .incDe
  | .hl => .incHl

/-- The `DEC rr` rows by their operand (R73). -/
def Instr.ofDecPair : Pair → Instr
  | .bc => .decBc
  | .de => .decDe
  | .hl => .decHl

/-- The `LD r,r'` rows by destination and source (R78). -/
def Instr.ofLdReg : Reg → Reg → Instr
  | .b, .b => .ldBB
  | .b, .c => .ldBC
  | .b, .d => .ldBD
  | .b, .e => .ldBE
  | .b, .h => .ldBH
  | .b, .l => .ldBL
  | .b, .a => .ldBA
  | .c, .b => .ldCB
  | .c, .c => .ldCC
  | .c, .d => .ldCD
  | .c, .e => .ldCE
  | .c, .h => .ldCH
  | .c, .l => .ldCL
  | .c, .a => .ldCA
  | .d, .b => .ldDB
  | .d, .c => .ldDC
  | .d, .d => .ldDD
  | .d, .e => .ldDE
  | .d, .h => .ldDH
  | .d, .l => .ldDL
  | .d, .a => .ldDA
  | .e, .b => .ldEB
  | .e, .c => .ldEC
  | .e, .d => .ldED
  | .e, .e => .ldEE
  | .e, .h => .ldEH
  | .e, .l => .ldEL
  | .e, .a => .ldEA
  | .h, .b => .ldHB
  | .h, .c => .ldHC
  | .h, .d => .ldHD
  | .h, .e => .ldHE
  | .h, .h => .ldHH
  | .h, .l => .ldHL
  | .h, .a => .ldHA
  | .l, .b => .ldLB
  | .l, .c => .ldLC
  | .l, .d => .ldLD
  | .l, .e => .ldLE
  | .l, .h => .ldLH
  | .l, .l => .ldLL
  | .l, .a => .ldLA
  | .a, .b => .ldAB
  | .a, .c => .ldAC
  | .a, .d => .ldAD
  | .a, .e => .ldAE
  | .a, .h => .ldAH
  | .a, .l => .ldAL
  | .a, .a => .ldAA

/-- The `LD r,n` rows by destination (R79). -/
def Instr.ofLdImm : Reg → Instr
  | .b => .ldBN8
  | .c => .ldCN8
  | .d => .ldDN8
  | .e => .ldEN8
  | .h => .ldHN8
  | .l => .ldLN8
  | .a => .ldAN8

/-- The `LD r,(HL)` rows by destination (R80). -/
def Instr.ofLdMemHl : Reg → Instr
  | .b => .ldBMemHl
  | .c => .ldCMemHl
  | .d => .ldDMemHl
  | .e => .ldEMemHl
  | .h => .ldHMemHl
  | .l => .ldLMemHl
  | .a => .ldAMemHl

/-- The `LD (HL),r` rows by source (R81). -/
def Instr.ofStMemHl : Reg → Instr
  | .b => .ldMemHlB
  | .c => .ldMemHlC
  | .d => .ldMemHlD
  | .e => .ldMemHlE
  | .h => .ldMemHlH
  | .l => .ldMemHlL
  | .a => .ldMemHlA

/-- The `LD rr,nn` rows by destination (R87). -/
def Instr.ofLdPairImm : Pair → Instr
  | .bc => .ldBcN16
  | .de => .ldDeN16
  | .hl => .ldHlN16

/-- The `JP nn` and `JP cc,nn` rows by condition, `none` for the plain jump (R92, R93). -/
def Instr.ofJp : Option Cond → Instr
  | some .nz => .jpNzN16
  | none => .jpN16
  | some .z => .jpZN16
  | some .nc => .jpNcN16
  | some .c => .jpCN16

/-- The `JR e` and `JR cc,e` rows by condition, `none` for the plain jump (R94, R95). -/
def Instr.ofJr : Option Cond → Instr
  | none => .jrE8
  | some .nz => .jrNzE8
  | some .z => .jrZE8
  | some .nc => .jrNcE8
  | some .c => .jrCE8

/-- Register names of the assembler (R64). -/
def Reg.text : Reg → String
  | .b => "B" | .c => "C" | .d => "D" | .e => "E" | .h => "H" | .l => "L" | .a => "A"

/-- Pair names of the assembler (R64). -/
def Pair.text : Pair → String
  | .bc => "BC" | .de => "DE" | .hl => "HL"

/-- Condition names of the assembler (R64), with the comma that separates them from the target. -/
def Cond.prefixText : Option Cond → String
  | none => ""
  | some .nz => "NZ," | some .z => "Z," | some .nc => "NC," | some .c => "C,"

/-- A form in the text form of R64, its immediate (if it has one) written as `imm`. -/
def Form.textWith (imm : String) : Form → String
  | .add r => "ADD A," ++ r.text
  | .sub r => "SUB " ++ r.text
  | .inc8 r => "INC " ++ r.text
  | .dec8 r => "DEC " ++ r.text
  | .inc16 p => "INC " ++ p.text
  | .dec16 p => "DEC " ++ p.text
  | .ld8 t v =>
    let dst := match t with
      | .reg r => r.text
      | .memAt p => "(" ++ p.text ++ ")"
    let src := match v with
      | .reg r => r.text
      | .imm8 => imm
      | .memAt p => "(" ++ p.text ++ ")"
    "LD " ++ dst ++ "," ++ src
  | .ld16 t v =>
    let dst := match t with
      | .pair p => p.text
      | .sp => "SP"
    let src := match v with
      | .pair p => p.text
      | .imm16 => imm
    "LD " ++ dst ++ "," ++ src
  | .jp cc => "JP " ++ Cond.prefixText cc ++ imm
  | .jr cc => "JR " ++ Cond.prefixText cc ++ imm

/-- The number R64 writes for an operand: unsigned decimal, but the signed displacement for a `JR`. -/
def Form.immText : Form → Operand → String
  | _, .none => ""
  | .jr _, .byte e8 => if 128 ≤ e8.toNat then "-" ++ Nat.repr (256 - e8.toNat) else Nat.repr e8.toNat
  | _, .byte n8 => Nat.repr n8.toNat
  | _, .word n16 => Nat.repr n16.toNat

/-- The assembler text of an instruction with its operand (R64; the text carries no semantics, log entry 18). -/
def Instr.text (i : Instr) (o : Operand) : String := i.form.textWith (i.form.immText o)

end Sys2Proof
end

