-- ==== Sys2Proof/WellFormed.lean ====
section
/-! DEFINITION. Which tagged values have an opcode (spec/30_encoding.md R58, R66; spec/41_load.md R90) and which operand bytes go with which instruction (R52). -/

namespace Sys2Proof

/-- The combinations of R66's types that are rows of R58, and no others. -/
def Form.admitted : Form → Bool
  | .add _ | .sub _ | .inc8 _ | .dec8 _ | .inc16 _ | .dec16 _ => true
  | .ld8 (.reg _) (.reg _) | .ld8 (.reg _) .imm8 => true
  | .ld8 (.reg r) (.memAt p) => p == .hl || r == .a
  | .ld8 (.memAt p) (.reg r) => p == .hl || r == .a
  | .ld8 (.memAt p) .imm8 => p == .hl
  | .ld8 (.memAt _) (.memAt _) => false
  | .ld16 (.pair _) .imm16 | .ld16 .sp .imm16 => true
  | .ld16 .sp (.pair p) => p == .hl
  | .ld16 (.pair _) (.pair _) => false
  | .jp _ | .jr _ => true

/-- The operand has the width the format asks for (R52). Any value of it is legal (R61). -/
def Format.fits : Format → Operand → Bool
  | .op, .none => true
  | .opN8, .byte _ => true
  | .opN16, .word _ => true
  | _, _ => false

/-- An instruction together with its operand bytes is well formed: the form is admitted and the operand has
the format's width. -/
def wellFormed (i : Instr) (o : Operand) : Bool := i.form.admitted && i.format.fits o

end Sys2Proof
end

