-- ==== Sys2Proof/Decode.lean ====
section
/-! DEFINITION. Decoding (spec/30_encoding.md R52 to R61, spec/43_step_cycle_and_host_interface.md R100) and, after it, the encoder. The opcode map is a table, R5's parameter `OPCODE_MAP` (log entry 1). -/

namespace Sys2Proof

/-- `hi ++ lo`: a 16-bit value from its high and its low byte (R6, R16, R37). -/
def joinBytes (hi lo : Byte) : Word := BitVec.ofNat 16 (hi.toNat * 256 + lo.toNat)

/-- `v[15:8]` (R6). -/
def hiByte (v : Word) : Byte := BitVec.ofNat 8 (v.toNat / 256)

/-- `v[7:0]` (R6). -/
def loByte (v : Word) : Byte := BitVec.ofNat 8 v.toNat

/-- The supported table of R58 as its grid lays it out: the row of the high hex digit, each entry an opcode byte and
its instruction. 124 bytes in all; a byte that is not listed is an unknown opcode (R60). -/
def opcodeRow : Nat → List (Byte × Instr)
  | 0x0 =>
     [(0x01, .ldBcN16), (0x02, .ldMemBcA), (0x03, .incBc), (0x04, .incB),
      (0x05, .decB), (0x06, .ldBN8), (0x0A, .ldAMemBc), (0x0B, .decBc),
      (0x0C, .incC), (0x0D, .decC), (0x0E, .ldCN8)]
  | 0x1 =>
     [(0x11, .ldDeN16), (0x12, .ldMemDeA), (0x13, .incDe), (0x14, .incD),
      (0x15, .decD), (0x16, .ldDN8), (0x18, .jrE8), (0x1A, .ldAMemDe),
      (0x1B, .decDe), (0x1C, .incE), (0x1D, .decE), (0x1E, .ldEN8)]
  | 0x2 =>
     [(0x20, .jrNzE8), (0x21, .ldHlN16), (0x23, .incHl), (0x24, .incH),
      (0x25, .decH), (0x26, .ldHN8), (0x28, .jrZE8), (0x2B, .decHl),
      (0x2C, .incL), (0x2D, .decL), (0x2E, .ldLN8)]
  | 0x3 =>
     [(0x30, .jrNcE8), (0x31, .ldSpN16), (0x36, .ldMemHlN8), (0x38, .jrCE8),
      (0x3C, .incA), (0x3D, .decA), (0x3E, .ldAN8)]
  | 0x4 =>
     [(0x40, .ldBB), (0x41, .ldBC), (0x42, .ldBD), (0x43, .ldBE),
      (0x44, .ldBH), (0x45, .ldBL), (0x46, .ldBMemHl), (0x47, .ldBA),
      (0x48, .ldCB), (0x49, .ldCC), (0x4A, .ldCD), (0x4B, .ldCE),
      (0x4C, .ldCH), (0x4D, .ldCL), (0x4E, .ldCMemHl), (0x4F, .ldCA)]
  | 0x5 =>
     [(0x50, .ldDB), (0x51, .ldDC), (0x52, .ldDD), (0x53, .ldDE),
      (0x54, .ldDH), (0x55, .ldDL), (0x56, .ldDMemHl), (0x57, .ldDA),
      (0x58, .ldEB), (0x59, .ldEC), (0x5A, .ldED), (0x5B, .ldEE),
      (0x5C, .ldEH), (0x5D, .ldEL), (0x5E, .ldEMemHl), (0x5F, .ldEA)]
  | 0x6 =>
     [(0x60, .ldHB), (0x61, .ldHC), (0x62, .ldHD), (0x63, .ldHE),
      (0x64, .ldHH), (0x65, .ldHL), (0x66, .ldHMemHl), (0x67, .ldHA),
      (0x68, .ldLB), (0x69, .ldLC), (0x6A, .ldLD), (0x6B, .ldLE),
      (0x6C, .ldLH), (0x6D, .ldLL), (0x6E, .ldLMemHl), (0x6F, .ldLA)]
  | 0x7 =>
     [(0x70, .ldMemHlB), (0x71, .ldMemHlC), (0x72, .ldMemHlD), (0x73, .ldMemHlE),
      (0x74, .ldMemHlH), (0x75, .ldMemHlL), (0x77, .ldMemHlA), (0x78, .ldAB),
      (0x79, .ldAC), (0x7A, .ldAD), (0x7B, .ldAE), (0x7C, .ldAH),
      (0x7D, .ldAL), (0x7E, .ldAMemHl), (0x7F, .ldAA)]
  | 0x8 =>
     [(0x80, .addAB), (0x81, .addAC), (0x82, .addAD), (0x83, .addAE),
      (0x84, .addAH), (0x85, .addAL), (0x87, .addAA)]
  | 0x9 =>
     [(0x90, .subB), (0x91, .subC), (0x92, .subD), (0x93, .subE),
      (0x94, .subH), (0x95, .subL), (0x97, .subA)]
  | 0xC =>
     [(0xC2, .jpNzN16), (0xC3, .jpN16), (0xCA, .jpZN16)]
  | 0xD =>
     [(0xD2, .jpNcN16), (0xDA, .jpCN16)]
  | 0xF =>
     [(0xF9, .ldSpHl)]
  | _ => []

/-- Look an opcode byte up in a list of table entries. -/
def lookupOpcode : List (Byte × Instr) → Byte → Option Instr
  | [], _ => none
  | (b, i) :: rest, op => if op = b then some i else lookupOpcode rest op

/-- Decode: a pure function of the opcode byte (R59), `none` for an unknown opcode (R60). -/
def decodeOpcode (op : Byte) : Option Instr := lookupOpcode (opcodeRow (op.toNat / 16)) op

/-- The register a 3-bit code names; code 6 is `(HL)` and names no register (R54). -/
def regOfCode : Nat → Option Reg
  | 0 => some .b | 1 => some .c | 2 => some .d | 3 => some .e
  | 4 => some .h | 5 => some .l | 7 => some .a
  | _ => none

/-- The pair a 2-bit code names; code 3 is SP and names no pair (R55). -/
def pairOfCode : Nat → Option Pair
  | 0 => some .bc | 1 => some .de | 2 => some .hl
  | _ => none

/-- The condition a 2-bit code names (R55). -/
def condOfCode : Nat → Option Cond
  | 0 => some .nz | 1 => some .z | 2 => some .nc | 3 => some .c
  | _ => none

/-- The target of an 8-bit load by its code (R54): a register, or the byte at HL for code 6. -/
def targetOfCode (y : Nat) : LoadTarget := ((regOfCode y).map .reg).getD (.memAt .hl)

/-- The source of an 8-bit load by its code (R54). -/
def sourceOfCode (z : Nat) : LoadSource := ((regOfCode z).map .reg).getD (.memAt .hl)

/-- The customary field reading of the opcode byte (R53 to R55): `x`, `y`, `z`, `p`, `q` and what they select.
The decoder is the table; this is the second description of it that R53 to R55 and R58's patterns give. -/
def decodeFields (op : Byte) : Option Form :=
  let x := op.toNat / 64
  let y := op.toNat / 8 % 8
  let z := op.toNat % 8
  let p := y / 2
  let q := y % 2
  match x with
  | 0 =>
    match z with
    | 0 => if y = 3 then some (.jr none) else if 4 ≤ y then (condOfCode (y - 4)).map (fun cc => .jr (some cc)) else none
    | 1 => if q = 0 then some (.ld16 (((pairOfCode p).map .pair).getD .sp) .imm16) else none
    | 2 =>
      match y with
      | 0 => some (.ld8 (.memAt .bc) (.reg .a))
      | 1 => some (.ld8 (.reg .a) (.memAt .bc))
      | 2 => some (.ld8 (.memAt .de) (.reg .a))
      | 3 => some (.ld8 (.reg .a) (.memAt .de))
      | _ => none
    | 3 => (pairOfCode p).map (if q = 0 then .inc16 else .dec16)
    | 4 => (regOfCode y).map .inc8
    | 5 => (regOfCode y).map .dec8
    | 6 => some (.ld8 (targetOfCode y) .imm8)
    | _ => none
  | 1 => if y = 6 ∧ z = 6 then none else some (.ld8 (targetOfCode y) (sourceOfCode z))
  | 2 => if y = 0 then (regOfCode z).map .add else if y = 2 then (regOfCode z).map .sub else none
  | _ =>
    match z with
    | 1 => if y = 7 then some (.ld16 .sp (.pair .hl)) else none
    | 2 => if y < 4 then (condOfCode y).map (fun cc => .jp (some cc)) else none
    | 3 => if y = 0 then some (.jp none) else none
    | _ => none

/-- What reading one instruction from a byte sequence gives. -/
inductive Decoded where
  /-- An instruction, its operand bytes, and the bytes after it. -/
  | ok (i : Instr) (o : Operand) (rest : List Byte)
  /-- The opcode byte is not in the table (R60). -/
  | unknownOpcode (op : Byte)
  /-- The sequence ends before the instruction's last byte. Never happens in memory, which wraps (R28). -/
  | truncated (i : Instr)
  /-- There is no byte at all. -/
  | empty
deriving DecidableEq, Repr

/-- Take the operand bytes of a format off a byte sequence: `n16` low byte first (R52, R56). -/
def takeOperand : Format → List Byte → Option (Operand × List Byte)
  | .op, bs => some (.none, bs)
  | .opN8, b :: bs => some (.byte b, bs)
  | .opN16, lo :: hi :: bs => some (.word (joinBytes hi lo), bs)
  | _, _ => none

/-- Read one instruction with its operand bytes from a byte sequence. Total; rejects by name. -/
def decode : List Byte → Decoded
  | [] => .empty
  | op :: bs =>
    match decodeOpcode op with
    | none => .unknownOpcode op
    | some i =>
      match takeOperand i.format bs with
      | none => .truncated i
      | some (o, rest) => .ok i o rest

/-- The bytes of a table word, in memory order: bit 0 of the word is bit 0 of the first byte. The longest
instruction has three bytes (R52), and bits from `nbits` up are zero. -/
def tableBytes (nbits w : Nat) : List Byte :=
  let v := w % 2 ^ nbits
  [BitVec.ofNat 8 v, BitVec.ofNat 8 (v / 256), BitVec.ofNat 8 (v / 65536)]

/-- The instruction this decoder reads from an opcode-table word. -/
def decodeTableWord (nbits w : Nat) : Option Instr :=
  match decode (tableBytes nbits w) with
  | .ok i _ _ => some i
  | .unknownOpcode _ | .truncated _ | .empty => none

/-- The opcode byte of an instruction (the Opcode bytes column of R58). -/
def encodeOpcode : Instr → Byte
  | .ldBcN16 => 0x01 | .ldMemBcA => 0x02 | .incBc => 0x03 | .incB => 0x04
  | .decB => 0x05 | .ldBN8 => 0x06 | .ldAMemBc => 0x0A | .decBc => 0x0B
  | .incC => 0x0C | .decC => 0x0D | .ldCN8 => 0x0E | .ldDeN16 => 0x11
  | .ldMemDeA => 0x12 | .incDe => 0x13 | .incD => 0x14 | .decD => 0x15
  | .ldDN8 => 0x16 | .jrE8 => 0x18 | .ldAMemDe => 0x1A | .decDe => 0x1B
  | .incE => 0x1C | .decE => 0x1D | .ldEN8 => 0x1E | .jrNzE8 => 0x20
  | .ldHlN16 => 0x21 | .incHl => 0x23 | .incH => 0x24 | .decH => 0x25
  | .ldHN8 => 0x26 | .jrZE8 => 0x28 | .decHl => 0x2B | .incL => 0x2C
  | .decL => 0x2D | .ldLN8 => 0x2E | .jrNcE8 => 0x30 | .ldSpN16 => 0x31
  | .ldMemHlN8 => 0x36 | .jrCE8 => 0x38 | .incA => 0x3C | .decA => 0x3D
  | .ldAN8 => 0x3E | .ldBB => 0x40 | .ldBC => 0x41 | .ldBD => 0x42
  | .ldBE => 0x43 | .ldBH => 0x44 | .ldBL => 0x45 | .ldBMemHl => 0x46
  | .ldBA => 0x47 | .ldCB => 0x48 | .ldCC => 0x49 | .ldCD => 0x4A
  | .ldCE => 0x4B | .ldCH => 0x4C | .ldCL => 0x4D | .ldCMemHl => 0x4E
  | .ldCA => 0x4F | .ldDB => 0x50 | .ldDC => 0x51 | .ldDD => 0x52
  | .ldDE => 0x53 | .ldDH => 0x54 | .ldDL => 0x55 | .ldDMemHl => 0x56
  | .ldDA => 0x57 | .ldEB => 0x58 | .ldEC => 0x59 | .ldED => 0x5A
  | .ldEE => 0x5B | .ldEH => 0x5C | .ldEL => 0x5D | .ldEMemHl => 0x5E
  | .ldEA => 0x5F | .ldHB => 0x60 | .ldHC => 0x61 | .ldHD => 0x62
  | .ldHE => 0x63 | .ldHH => 0x64 | .ldHL => 0x65 | .ldHMemHl => 0x66
  | .ldHA => 0x67 | .ldLB => 0x68 | .ldLC => 0x69 | .ldLD => 0x6A
  | .ldLE => 0x6B | .ldLH => 0x6C | .ldLL => 0x6D | .ldLMemHl => 0x6E
  | .ldLA => 0x6F | .ldMemHlB => 0x70 | .ldMemHlC => 0x71 | .ldMemHlD => 0x72
  | .ldMemHlE => 0x73 | .ldMemHlH => 0x74 | .ldMemHlL => 0x75 | .ldMemHlA => 0x77
  | .ldAB => 0x78 | .ldAC => 0x79 | .ldAD => 0x7A | .ldAE => 0x7B
  | .ldAH => 0x7C | .ldAL => 0x7D | .ldAMemHl => 0x7E | .ldAA => 0x7F
  | .addAB => 0x80 | .addAC => 0x81 | .addAD => 0x82 | .addAE => 0x83
  | .addAH => 0x84 | .addAL => 0x85 | .addAA => 0x87 | .subB => 0x90
  | .subC => 0x91 | .subD => 0x92 | .subE => 0x93 | .subH => 0x94
  | .subL => 0x95 | .subA => 0x97 | .jpNzN16 => 0xC2 | .jpN16 => 0xC3
  | .jpZN16 => 0xCA | .jpNcN16 => 0xD2 | .jpCN16 => 0xDA | .ldSpHl => 0xF9

/-- The operand bytes in memory order: `n16[7:0]` before `n16[15:8]` (R52, R56). -/
def encodeOperand : Operand → List Byte
  | .none => []
  | .byte b => [b]
  | .word w => [loByte w, hiByte w]

/-- The bytes of an instruction with its operand, in memory order (R52). -/
def encode (i : Instr) (o : Operand) : List Byte := encodeOpcode i :: encodeOperand o

end Sys2Proof
end

