-- ==== Sys2Proof/Config.lean ====
section
/-! DEFINITION. The parameters of spec/00_scope.md R5 that are constants. `OPCODE_MAP` is `Sys2Proof.opcodeRow` (Decode.lean), `ADDR_WRAP` is `Sys2Proof.Machine.addrAdd` (Machine/Ops.lean) and `INC16_FLAGS` is `Sys2Proof.Machine.inc16Flags` (Machine/Flags.lean). No value of this core is free (R9), so there is no opaque constant. -/

namespace Sys2Proof.Config

/-- `MEM_SIZE`: bytes of memory, addresses 0x0000 to 0xFFFF (R5, R29). -/
def memSize : Nat := 65536

/-- `PC_RESET`: the entry point (R5, R34). -/
def pcReset : Word := 0x0000

/-- `SP_RESET`: "top of memory", decided to be 0xFFFF (R5, R34, D6).
DESIGN CHOICE of the spec (log entry 3), unsafe: a claim about the first SP should hold for every value of it. -/
def spReset : Word := 0xFFFF

/-- What a byte nothing has written reads as: memory is zero-filled at construction (R34, R45). -/
def unwritten : Byte := 0x00

end Sys2Proof.Config
end

