-- ==== Sys2Proof/Machine/State.lean ====
section
/-! DEFINITION. The state of the core (spec/10_state.md R33), its reset (R34), and the reasons a step can stop (spec/60_exceptions.md R113). -/

namespace Sys2Proof.Machine

/-- The four flags, the core's only condition codes (R19). F is their byte view, no second storage (R13, R23). -/
structure Flags where
  z : Bool
  n : Bool
  h : Bool
  c : Bool
deriving DecidableEq, Repr

/-- The memory array as a list of (address, byte) pairs (R29). An unlisted address reads as
`Config.unwritten`; `Memory.wf` (Machine/Ops.lean) is the canonical form. -/
abbrev Memory := List Host.Cell

/-- The complete state of the core, and nothing else (R33). -/
structure State where
  a : Byte
  b : Byte
  c : Byte
  d : Byte
  e : Byte
  h : Byte
  l : Byte
  flags : Flags
  sp : Word
  pc : Word
  mem : Memory
deriving DecidableEq, Repr

/-- Why a step ends without completing an instruction. -/
inductive Fault where
  /-- Raised by the decode part of `step`, and by nothing else, when the opcode byte fetched at PC is not in
  the supported table: the offending opcode and its address (R113). The state is what it was before the
  step (R115). Safe: it is the behaviour the spec gives (log entry 10). -/
  | decodeError (opcode : Byte) (addr : Word)
deriving DecidableEq, Repr

/-- Why an instruction has no meaning in the model. -/
inductive Refusal where
  /-- An instruction with no meaning yet. No arm of `exec` raises it: all 124 rows have their meaning. Safe
  (log entry 16). -/
  | notModelled (mnemonic : String)
deriving DecidableEq, Repr

/-- Construction with a given `SP_RESET` (R34, R105): registers and flags zero, PC at the entry point, memory
zero-filled. -/
def State.construct (spReset : Word) : State :=
  { a := 0x00, b := 0x00, c := 0x00, d := 0x00, e := 0x00, h := 0x00, l := 0x00
    flags := { z := false, n := false, h := false, c := false }
    sp := spReset, pc := Config.pcReset, mem := [] }

/-- The machine right after reset, which is construction (R34, R129), with the default `SP_RESET` (log entry 3). -/
def State.reset : State := State.construct Config.spReset

end Sys2Proof.Machine
end

