-- ==== Sys2Proof/Machine/Ops.lean ====
section
/-! DEFINITION. The named operations over registers, pairs, PC, SP and memory (spec/00_scope.md R7, spec/10_state.md R13 to R28, spec/20_memory.md R35 to R51), and the one exception (spec/60_exceptions.md R113). -/

namespace Sys2Proof.Machine

/-- The outcome of an instruction or a step. -/
abbrev Outcome := Host.Outcome State Fault Refusal

/-- Raise the decode error (R7, R113). Nothing is saved, masked or vectored and no state is written (R115,
R122): the two recorded values go to the host in the step's result. There is no return from it (R123). -/
def raiseDecodeError (opcode : Byte) (addr : Word) : Outcome := .fault (.decodeError opcode addr)

/-! ### Registers (R7 `x[r]`, `x[r] <- v`) -/

/-- `x[r]` (R7, R15: always defined). -/
def State.getReg (s : State) : Reg → Byte
  | .b => s.b | .c => s.c | .d => s.d | .e => s.e | .h => s.h | .l => s.l | .a => s.a

/-- `x[r] <- v` (R7, R15). -/
def State.setReg (s : State) (r : Reg) (v : Byte) : State :=
  match r with
  | .b => { s with b := v } | .c => { s with c := v } | .d => { s with d := v } | .e => { s with e := v }
  | .h => { s with h := v } | .l => { s with l := v } | .a => { s with a := v }

/-- `hi(p)`, the high half of a pair (R16). -/
def hiReg : Pair → Reg
  | .bc => .b | .de => .d | .hl => .h

/-- `lo(p)`, the low half of a pair (R16). -/
def loReg : Pair → Reg
  | .bc => .c | .de => .e | .hl => .l

/-- `xp[p]`: a pure view of the two halves (R16). -/
def State.getPair (s : State) (p : Pair) : Word := joinBytes (s.getReg (hiReg p)) (s.getReg (loReg p))

/-- `xp[p] <- v`: both halves as one action (R16, R17). -/
def State.setPair (s : State) (p : Pair) (v : Word) : State :=
  (s.setReg (hiReg p) (hiByte v)).setReg (loReg p) (loByte v)

/-- `flags <- (z, n, h, c)`: whole replacement, the only way flags change (R7, R23). -/
def State.setFlags (s : State) (f : Flags) : State := { s with flags := f }

/-- `sp <- v` (R7, R25). -/
def State.setSp (s : State) (v : Word) : State := { s with sp := v }

/-- `pc <- target` (R7, R26). -/
def State.setPc (s : State) (v : Word) : State := { s with pc := v }

/-! ### 16-bit sums -/

/-- `(a + k) mod 2^16`: every sum that forms an address, a PC or a pair value (R28, R39, D7).
DESIGN CHOICE of the spec, `ADDR_WRAP` (log entry 2), unsafe for code that runs across 0xFFFF. -/
def addrAdd (a : Word) (k : Nat) : Word := BitVec.ofNat 16 (a.toNat + k)

/-- `(a - 1) mod 2^16` (R73, R74). -/
def wordDec (a : Word) : Word := BitVec.ofInt 16 ((a.toNat : Int) - 1)

/-- `pc <- (pc + len) mod 2^16` (R27, R102). -/
def State.advance (s : State) (len : Nat) : State := s.setPc (addrAdd s.pc len)

/-! ### Memory -/

/-- `mem[a]` (R35): a listed byte, else what a byte nothing has written reads as (R34, R45). -/
def Memory.read : Memory → Nat → Byte
  | [], _ => Config.unwritten
  | (k, v) :: rest, a => if k = a then v else Memory.read rest a

/-- Drop what is listed at an address. -/
def Memory.erase : Memory → Nat → Memory
  | [], _ => []
  | (k, v) :: rest, a => if k = a then Memory.erase rest a else (k, v) :: Memory.erase rest a

/-- List a byte before the first higher address. -/
def Memory.insert : Memory → Nat → Byte → Memory
  | [], a, x => [(a, x)]
  | (k, v) :: rest, a, x => if a < k then (a, x) :: (k, v) :: rest else (k, v) :: Memory.insert rest a x

/-- `mem[a] <- x` (R36). Writing the value an unlisted address reads as only removes the entry, so that equal
memories are equal lists (log entry 8). -/
def Memory.write (m : Memory) (a : Nat) (x : Byte) : Memory :=
  if x = Config.unwritten then Memory.erase m a else Memory.insert (Memory.erase m a) a x

/-- The canonical form from address `lo` up: addresses strictly rising and below `MEM_SIZE`, no entry equal to
what an unlisted address reads as. -/
def Memory.wfFrom (lo : Nat) : Memory → Bool
  | [] => true
  | (k, v) :: rest =>
    decide (lo ≤ k) && decide (k < Config.memSize) && decide (v ≠ Config.unwritten) && Memory.wfFrom (k + 1) rest

/-- The memory is in its canonical form. -/
def Memory.wf (m : Memory) : Bool := Memory.wfFrom 0 m

/-- Copy bytes into memory from an address up (R106). -/
def Memory.writeBytes : Memory → Nat → List Byte → Memory
  | m, _, [] => m
  | m, a, x :: xs => Memory.writeBytes (Memory.write m a x) (a + 1) xs

/-- `MemRead(addr, 1)`, GL's `read_byte` (R35). No failure mode, no side effect (R45, R47). -/
def State.readByte (s : State) (addr : Word) : Byte := Memory.read s.mem addr.toNat

/-- `MemWrite(addr, 1, v)`, GL's `write_byte` (R36). -/
def State.writeByte (s : State) (addr : Word) (v : Byte) : State := { s with mem := Memory.write s.mem addr.toNat v }

/-- `MemRead(addr, 2)`, GL's `read_word`: little-endian, the second byte at `(addr + 1) mod 2^16` (R37, R39, R40). -/
def State.readWord (s : State) (addr : Word) : Word := joinBytes (s.readByte (addrAdd addr 1)) (s.readByte addr)

/-- `MemWrite(addr, 2, v)`, GL's `write_word`: the low byte, then the high byte (R38). No instruction does it. -/
def State.writeWord (s : State) (addr : Word) (v : Word) : State :=
  (s.writeByte addr (loByte v)).writeByte (addrAdd addr 1) (hiByte v)

/-- Bytes stored one after the other, addresses mod 2^16. -/
def State.storeBytes : State → Word → List Byte → State
  | s, _, [] => s
  | s, addr, x :: xs => State.storeBytes (s.writeByte addr x) (addrAdd addr 1) xs

/-! ### Fetch -/

/-- Part 1 of a step: the opcode byte at the current PC (R99). -/
def State.fetchOpcode (s : State) : Byte := s.readByte s.pc

end Sys2Proof.Machine
end

