-- ==== Sys2Proof/Machine/Flags.lean ====
section
/-! DEFINITION. Every flag computation (spec/40_arithmetic.md R68 to R76) and the packed byte F (spec/10_state.md R19 to R24). -/

namespace Sys2Proof.Machine

/-- `v[3:0]`, the low nibble (R6). -/
def lowNibble (v : Byte) : Nat := v.toNat % 16

/-- One bit of the packed byte. -/
def flagBit (on : Bool) (weight : Nat) : Nat := if on then weight else 0

/-- `to_byte`, the value of `x[F]`: Z, N, H, C in bits 7 to 4, zeros below (R20). -/
def Flags.toByte (f : Flags) : Byte :=
  BitVec.ofNat 8 (flagBit f.z 0x80 + flagBit f.n 0x40 + flagBit f.h 0x20 + flagBit f.c 0x10)

/-- `from_byte`: bits 3 to 0 are ignored (R21). -/
def Flags.ofByte (b : Byte) : Flags :=
  { z := b.getLsbD 7, n := b.getLsbD 6, h := b.getLsbD 5, c := b.getLsbD 4 }

/-- `(a + v) mod 2^8`: the sum in unbounded integers, then narrowed (R68, R74). -/
def add8 (a v : Byte) : Byte := BitVec.ofNat 8 (a.toNat + v.toNat)

/-- `(a - v) mod 2^8`: the difference in integers, then narrowed (R69, R74). -/
def sub8 (a v : Byte) : Byte := BitVec.ofInt 8 ((a.toNat : Int) - v.toNat)

/-- The flags of `ADD A,r` (R68). -/
def addFlags (a v : Byte) : Flags :=
  { z := decide (add8 a v = 0)
    n := false
    h := decide (lowNibble a + lowNibble v > 0xF)
    c := decide (a.toNat + v.toNat > 0xFF) }

/-- The flags of `SUB r`: H and C are borrows (R69). -/
def subFlags (a v : Byte) : Flags :=
  { z := decide (sub8 a v = 0)
    n := true
    h := decide (lowNibble a < lowNibble v)
    c := decide (a.toNat < v.toNat) }

/-- The flags of 8-bit `INC r` with the old flags `f`: the carry is kept (R70).
N and H are DEDUCED by the spec from ADD with operand 1 (D10, log entry 5), unsafe for a reader of F. -/
def incFlags (f : Flags) (v : Byte) : Flags :=
  { z := decide (add8 v 1 = 0), n := false, h := decide (lowNibble v = 0xF), c := f.c }

/-- The flags of 8-bit `DEC r` with the old flags `f`: the carry is kept (R71).
N and H are DEDUCED by the spec from SUB with operand 1 (D10, log entry 5), unsafe for a reader of F. -/
def decFlags (f : Flags) (v : Byte) : Flags :=
  { z := decide (sub8 v 1 = 0), n := true, h := decide (lowNibble v = 0x0), c := f.c }

/-- The flags after 16-bit `INC rr` and `DEC rr`: none written (R72, R73).
DESIGN CHOICE of the spec, `INC16_FLAGS` (D9, log entry 4), unsafe. -/
def inc16Flags (f : Flags) : Flags := f

end Sys2Proof.Machine
end

