-- ==== Sys2Proof/Machine/Operands.lean ====
section
/-! DEFINITION. The operand forms: immediates, displacement, register-pair addresses, conditions (spec/30_encoding.md R56, R57, spec/41_load.md R90, spec/42_jump.md R91). During a step PC is still the address of the opcode when these read it (R27, R101). -/

namespace Sys2Proof.Machine

/-- `n8`: the byte at `(pc + 1) mod 2^16` (R56). Also the byte of `e8` (R57). -/
def State.fetchN8 (s : State) : Byte := s.readByte (addrAdd s.pc 1)

/-- `n16`: the little-endian word at `(pc + 1) mod 2^16` (R56). -/
def State.fetchN16 (s : State) : Word := s.readWord (addrAdd s.pc 1)

/-- The operand bytes a handler of each format fetches (R42). -/
def State.fetchOperand (s : State) : Format → Operand
  | .op => .none
  | .opN8 => .byte s.fetchN8
  | .opN16 => .word s.fetchN16

/-- `(pc + 2 + sext_16(e8)) mod 2^16`: the displacement, in two's complement, is added to the address right after
the two-byte instruction (R57, R94; log entries 2 and 7). -/
def State.relTarget (s : State) : Word := BitVec.ofInt 16 ((s.pc.toNat : Int) + 2 + s.fetchN8.toInt)

/-- `cond(cc)` against the current flags (R91). -/
def condHolds (f : Flags) : Cond → Bool
  | .nz => !f.z
  | .z => f.z
  | .nc => !f.c
  | .c => f.c

/-- The gate of a jump: an unconditional jump behaves as if the condition were true (R91). -/
def jumpTaken (f : Flags) : Option Cond → Bool
  | none => true
  | some cc => condHolds f cc

end Sys2Proof.Machine
end

