-- ==== Sys2Proof/Machine/Arithmetic.lean ====
section
/-! DEFINITION. The arithmetic family: ADD, SUB, INC, DEC (spec/40_arithmetic.md R67 to R76). First the shared operation of each form, then one meaning per row. -/

namespace Sys2Proof.Machine

/-- `ADD A,r` (R68). -/
def addA (r : Reg) (s : State) : State :=
  ((s.setReg .a (add8 (s.getReg .a) (s.getReg r))).setFlags (addFlags (s.getReg .a) (s.getReg r))).advance 1

/-- `SUB r` (R69). -/
def subA (r : Reg) (s : State) : State :=
  ((s.setReg .a (sub8 (s.getReg .a) (s.getReg r))).setFlags (subFlags (s.getReg .a) (s.getReg r))).advance 1

/-- `INC r` (R70). -/
def incReg (r : Reg) (s : State) : State :=
  ((s.setReg r (add8 (s.getReg r) 1)).setFlags (incFlags s.flags (s.getReg r))).advance 1

/-- `DEC r` (R71). -/
def decReg (r : Reg) (s : State) : State :=
  ((s.setReg r (sub8 (s.getReg r) 1)).setFlags (decFlags s.flags (s.getReg r))).advance 1

/-- `INC rr` (R72). -/
def incPair (p : Pair) (s : State) : State :=
  ((s.setPair p (addrAdd (s.getPair p) 1)).setFlags (inc16Flags s.flags)).advance 1

/-- `DEC rr` (R73). -/
def decPair (p : Pair) (s : State) : State :=
  ((s.setPair p (wordDec (s.getPair p))).setFlags (inc16Flags s.flags)).advance 1

/-- `ADD A,B` (R68). -/
def execAddAB (s : State) : Outcome := .next (addA .b s)

/-- `ADD A,C` (R68). -/
def execAddAC (s : State) : Outcome := .next (addA .c s)

/-- `ADD A,D` (R68). -/
def execAddAD (s : State) : Outcome := .next (addA .d s)

/-- `ADD A,E` (R68). -/
def execAddAE (s : State) : Outcome := .next (addA .e s)

/-- `ADD A,H` (R68). -/
def execAddAH (s : State) : Outcome := .next (addA .h s)

/-- `ADD A,L` (R68). -/
def execAddAL (s : State) : Outcome := .next (addA .l s)

/-- `ADD A,A` (R68). -/
def execAddAA (s : State) : Outcome := .next (addA .a s)

/-- `SUB B` (R69). -/
def execSubB (s : State) : Outcome := .next (subA .b s)

/-- `SUB C` (R69). -/
def execSubC (s : State) : Outcome := .next (subA .c s)

/-- `SUB D` (R69). -/
def execSubD (s : State) : Outcome := .next (subA .d s)

/-- `SUB E` (R69). -/
def execSubE (s : State) : Outcome := .next (subA .e s)

/-- `SUB H` (R69). -/
def execSubH (s : State) : Outcome := .next (subA .h s)

/-- `SUB L` (R69). -/
def execSubL (s : State) : Outcome := .next (subA .l s)

/-- `SUB A` (R69). -/
def execSubA (s : State) : Outcome := .next (subA .a s)

/-- `INC B` (R70). -/
def execIncB (s : State) : Outcome := .next (incReg .b s)

/-- `INC C` (R70). -/
def execIncC (s : State) : Outcome := .next (incReg .c s)

/-- `INC D` (R70). -/
def execIncD (s : State) : Outcome := .next (incReg .d s)

/-- `INC E` (R70). -/
def execIncE (s : State) : Outcome := .next (incReg .e s)

/-- `INC H` (R70). -/
def execIncH (s : State) : Outcome := .next (incReg .h s)

/-- `INC L` (R70). -/
def execIncL (s : State) : Outcome := .next (incReg .l s)

/-- `INC A` (R70). -/
def execIncA (s : State) : Outcome := .next (incReg .a s)

/-- `DEC B` (R71). -/
def execDecB (s : State) : Outcome := .next (decReg .b s)

/-- `DEC C` (R71). -/
def execDecC (s : State) : Outcome := .next (decReg .c s)

/-- `DEC D` (R71). -/
def execDecD (s : State) : Outcome := .next (decReg .d s)

/-- `DEC E` (R71). -/
def execDecE (s : State) : Outcome := .next (decReg .e s)

/-- `DEC H` (R71). -/
def execDecH (s : State) : Outcome := .next (decReg .h s)

/-- `DEC L` (R71). -/
def execDecL (s : State) : Outcome := .next (decReg .l s)

/-- `DEC A` (R71). -/
def execDecA (s : State) : Outcome := .next (decReg .a s)

/-- `INC BC` (R72). -/
def execIncBc (s : State) : Outcome := .next (incPair .bc s)

/-- `INC DE` (R72). -/
def execIncDe (s : State) : Outcome := .next (incPair .de s)

/-- `INC HL` (R72). -/
def execIncHl (s : State) : Outcome := .next (incPair .hl s)

/-- `DEC BC` (R73). -/
def execDecBc (s : State) : Outcome := .next (decPair .bc s)

/-- `DEC DE` (R73). -/
def execDecDe (s : State) : Outcome := .next (decPair .de s)

/-- `DEC HL` (R73). -/
def execDecHl (s : State) : Outcome := .next (decPair .hl s)

end Sys2Proof.Machine
end

