-- ==== Sys2Proof/Machine/Jump.lean ====
section
/-! DEFINITION. The jump family: JP and JR (spec/42_jump.md R91 to R97). A jump writes nothing but PC (R97). First the shared operation of each form, then one meaning per row. -/

namespace Sys2Proof.Machine

/-- `JP nn`, `JP cc,nn`: the absolute target, or past the three bytes (R92, R93). -/
def jumpAbs (cc : Option Cond) (s : State) : State :=
  if jumpTaken s.flags cc then s.setPc s.fetchN16 else s.advance 3

/-- `JR e`, `JR cc,e`: the relative target, or past the two bytes (R94, R95). -/
def jumpRel (cc : Option Cond) (s : State) : State :=
  if jumpTaken s.flags cc then s.setPc s.relTarget else s.advance 2

/-- `JP NZ,n16` (R93). -/
def execJpNzN16 (s : State) : Outcome := .next (jumpAbs (some .nz) s)

/-- `JP n16` (R92). -/
def execJpN16 (s : State) : Outcome := .next (jumpAbs none s)

/-- `JP Z,n16` (R93). -/
def execJpZN16 (s : State) : Outcome := .next (jumpAbs (some .z) s)

/-- `JP NC,n16` (R93). -/
def execJpNcN16 (s : State) : Outcome := .next (jumpAbs (some .nc) s)

/-- `JP C,n16` (R93). -/
def execJpCN16 (s : State) : Outcome := .next (jumpAbs (some .c) s)

/-- `JR e8` (R94). -/
def execJrE8 (s : State) : Outcome := .next (jumpRel none s)

/-- `JR NZ,e8` (R95). -/
def execJrNzE8 (s : State) : Outcome := .next (jumpRel (some .nz) s)

/-- `JR Z,e8` (R95). -/
def execJrZE8 (s : State) : Outcome := .next (jumpRel (some .z) s)

/-- `JR NC,e8` (R95). -/
def execJrNcE8 (s : State) : Outcome := .next (jumpRel (some .nc) s)

/-- `JR C,e8` (R95). -/
def execJrCE8 (s : State) : Outcome := .next (jumpRel (some .c) s)

end Sys2Proof.Machine
end

