-- ==== Sys2Proof/Machine/Load.lean ====
section
/-! DEFINITION. The load family: 8-bit LD and 16-bit LD (spec/41_load.md R77 to R90). No load reads or writes a flag (R77). First the shared operation of each form, then one meaning per row. -/

namespace Sys2Proof.Machine

/-- `LD r,r'` (R78). -/
def loadReg (r r' : Reg) (s : State) : State := (s.setReg r (s.getReg r')).advance 1

/-- `LD r,n` (R79). -/
def loadImm (r : Reg) (s : State) : State := (s.setReg r s.fetchN8).advance 2

/-- `LD r,(HL)`, `LD A,(BC)`, `LD A,(DE)`: the address is the pair's value before the instruction (R80, R83, R84). -/
def loadMem (r : Reg) (p : Pair) (s : State) : State := (s.setReg r (s.readByte (s.getPair p))).advance 1

/-- `LD (HL),r`, `LD (BC),A`, `LD (DE),A` (R81, R85, R86). -/
def storeReg (p : Pair) (r : Reg) (s : State) : State := (s.writeByte (s.getPair p) (s.getReg r)).advance 1

/-- `LD (HL),n`: the immediate is fetched before the write (R82, R43). -/
def storeImm (p : Pair) (s : State) : State := (s.writeByte (s.getPair p) s.fetchN8).advance 2

/-- `LD rr,nn` (R87). -/
def loadPairImm (p : Pair) (s : State) : State := (s.setPair p s.fetchN16).advance 3

/-- `LD SP,nn` (R88). -/
def loadSpImm (s : State) : State := (s.setSp s.fetchN16).advance 3

/-- `LD SP,HL` (R89). -/
def loadSpPair (p : Pair) (s : State) : State := (s.setSp (s.getPair p)).advance 1

/-- `LD B,B` (R78). -/
def execLdBB (s : State) : Outcome := .next (loadReg .b .b s)

/-- `LD B,C` (R78). -/
def execLdBC (s : State) : Outcome := .next (loadReg .b .c s)

/-- `LD B,D` (R78). -/
def execLdBD (s : State) : Outcome := .next (loadReg .b .d s)

/-- `LD B,E` (R78). -/
def execLdBE (s : State) : Outcome := .next (loadReg .b .e s)

/-- `LD B,H` (R78). -/
def execLdBH (s : State) : Outcome := .next (loadReg .b .h s)

/-- `LD B,L` (R78). -/
def execLdBL (s : State) : Outcome := .next (loadReg .b .l s)

/-- `LD B,A` (R78). -/
def execLdBA (s : State) : Outcome := .next (loadReg .b .a s)

/-- `LD C,B` (R78). -/
def execLdCB (s : State) : Outcome := .next (loadReg .c .b s)

/-- `LD C,C` (R78). -/
def execLdCC (s : State) : Outcome := .next (loadReg .c .c s)

/-- `LD C,D` (R78). -/
def execLdCD (s : State) : Outcome := .next (loadReg .c .d s)

/-- `LD C,E` (R78). -/
def execLdCE (s : State) : Outcome := .next (loadReg .c .e s)

/-- `LD C,H` (R78). -/
def execLdCH (s : State) : Outcome := .next (loadReg .c .h s)

/-- `LD C,L` (R78). -/
def execLdCL (s : State) : Outcome := .next (loadReg .c .l s)

/-- `LD C,A` (R78). -/
def execLdCA (s : State) : Outcome := .next (loadReg .c .a s)

/-- `LD D,B` (R78). -/
def execLdDB (s : State) : Outcome := .next (loadReg .d .b s)

/-- `LD D,C` (R78). -/
def execLdDC (s : State) : Outcome := .next (loadReg .d .c s)

/-- `LD D,D` (R78). -/
def execLdDD (s : State) : Outcome := .next (loadReg .d .d s)

/-- `LD D,E` (R78). -/
def execLdDE (s : State) : Outcome := .next (loadReg .d .e s)

/-- `LD D,H` (R78). -/
def execLdDH (s : State) : Outcome := .next (loadReg .d .h s)

/-- `LD D,L` (R78). -/
def execLdDL (s : State) : Outcome := .next (loadReg .d .l s)

/-- `LD D,A` (R78). -/
def execLdDA (s : State) : Outcome := .next (loadReg .d .a s)

/-- `LD E,B` (R78). -/
def execLdEB (s : State) : Outcome := .next (loadReg .e .b s)

/-- `LD E,C` (R78). -/
def execLdEC (s : State) : Outcome := .next (loadReg .e .c s)

/-- `LD E,D` (R78). -/
def execLdED (s : State) : Outcome := .next (loadReg .e .d s)

/-- `LD E,E` (R78). -/
def execLdEE (s : State) : Outcome := .next (loadReg .e .e s)

/-- `LD E,H` (R78). -/
def execLdEH (s : State) : Outcome := .next (loadReg .e .h s)

/-- `LD E,L` (R78). -/
def execLdEL (s : State) : Outcome := .next (loadReg .e .l s)

/-- `LD E,A` (R78). -/
def execLdEA (s : State) : Outcome := .next (loadReg .e .a s)

/-- `LD H,B` (R78). -/
def execLdHB (s : State) : Outcome := .next (loadReg .h .b s)

/-- `LD H,C` (R78). -/
def execLdHC (s : State) : Outcome := .next (loadReg .h .c s)

/-- `LD H,D` (R78). -/
def execLdHD (s : State) : Outcome := .next (loadReg .h .d s)

/-- `LD H,E` (R78). -/
def execLdHE (s : State) : Outcome := .next (loadReg .h .e s)

/-- `LD H,H` (R78). -/
def execLdHH (s : State) : Outcome := .next (loadReg .h .h s)

/-- `LD H,L` (R78). -/
def execLdHL (s : State) : Outcome := .next (loadReg .h .l s)

/-- `LD H,A` (R78). -/
def execLdHA (s : State) : Outcome := .next (loadReg .h .a s)

/-- `LD L,B` (R78). -/
def execLdLB (s : State) : Outcome := .next (loadReg .l .b s)

/-- `LD L,C` (R78). -/
def execLdLC (s : State) : Outcome := .next (loadReg .l .c s)

/-- `LD L,D` (R78). -/
def execLdLD (s : State) : Outcome := .next (loadReg .l .d s)

/-- `LD L,E` (R78). -/
def execLdLE (s : State) : Outcome := .next (loadReg .l .e s)

/-- `LD L,H` (R78). -/
def execLdLH (s : State) : Outcome := .next (loadReg .l .h s)

/-- `LD L,L` (R78). -/
def execLdLL (s : State) : Outcome := .next (loadReg .l .l s)

/-- `LD L,A` (R78). -/
def execLdLA (s : State) : Outcome := .next (loadReg .l .a s)

/-- `LD A,B` (R78). -/
def execLdAB (s : State) : Outcome := .next (loadReg .a .b s)

/-- `LD A,C` (R78). -/
def execLdAC (s : State) : Outcome := .next (loadReg .a .c s)

/-- `LD A,D` (R78). -/
def execLdAD (s : State) : Outcome := .next (loadReg .a .d s)

/-- `LD A,E` (R78). -/
def execLdAE (s : State) : Outcome := .next (loadReg .a .e s)

/-- `LD A,H` (R78). -/
def execLdAH (s : State) : Outcome := .next (loadReg .a .h s)

/-- `LD A,L` (R78). -/
def execLdAL (s : State) : Outcome := .next (loadReg .a .l s)

/-- `LD A,A` (R78). -/
def execLdAA (s : State) : Outcome := .next (loadReg .a .a s)

/-- `LD B,n8` (R79). -/
def execLdBN8 (s : State) : Outcome := .next (loadImm .b s)

/-- `LD C,n8` (R79). -/
def execLdCN8 (s : State) : Outcome := .next (loadImm .c s)

/-- `LD D,n8` (R79). -/
def execLdDN8 (s : State) : Outcome := .next (loadImm .d s)

/-- `LD E,n8` (R79). -/
def execLdEN8 (s : State) : Outcome := .next (loadImm .e s)

/-- `LD H,n8` (R79). -/
def execLdHN8 (s : State) : Outcome := .next (loadImm .h s)

/-- `LD L,n8` (R79). -/
def execLdLN8 (s : State) : Outcome := .next (loadImm .l s)

/-- `LD A,n8` (R79). -/
def execLdAN8 (s : State) : Outcome := .next (loadImm .a s)

/-- `LD B,(HL)` (R80). -/
def execLdBMemHl (s : State) : Outcome := .next (loadMem .b .hl s)

/-- `LD C,(HL)` (R80). -/
def execLdCMemHl (s : State) : Outcome := .next (loadMem .c .hl s)

/-- `LD D,(HL)` (R80). -/
def execLdDMemHl (s : State) : Outcome := .next (loadMem .d .hl s)

/-- `LD E,(HL)` (R80). -/
def execLdEMemHl (s : State) : Outcome := .next (loadMem .e .hl s)

/-- `LD H,(HL)` (R80). -/
def execLdHMemHl (s : State) : Outcome := .next (loadMem .h .hl s)

/-- `LD L,(HL)` (R80). -/
def execLdLMemHl (s : State) : Outcome := .next (loadMem .l .hl s)

/-- `LD A,(HL)` (R80). -/
def execLdAMemHl (s : State) : Outcome := .next (loadMem .a .hl s)

/-- `LD (HL),B` (R81). -/
def execLdMemHlB (s : State) : Outcome := .next (storeReg .hl .b s)

/-- `LD (HL),C` (R81). -/
def execLdMemHlC (s : State) : Outcome := .next (storeReg .hl .c s)

/-- `LD (HL),D` (R81). -/
def execLdMemHlD (s : State) : Outcome := .next (storeReg .hl .d s)

/-- `LD (HL),E` (R81). -/
def execLdMemHlE (s : State) : Outcome := .next (storeReg .hl .e s)

/-- `LD (HL),H` (R81). -/
def execLdMemHlH (s : State) : Outcome := .next (storeReg .hl .h s)

/-- `LD (HL),L` (R81). -/
def execLdMemHlL (s : State) : Outcome := .next (storeReg .hl .l s)

/-- `LD (HL),A` (R81). -/
def execLdMemHlA (s : State) : Outcome := .next (storeReg .hl .a s)

/-- `LD (HL),n8` (R82). -/
def execLdMemHlN8 (s : State) : Outcome := .next (storeImm .hl s)

/-- `LD A,(BC)` (R83). -/
def execLdAMemBc (s : State) : Outcome := .next (loadMem .a .bc s)

/-- `LD A,(DE)` (R84). -/
def execLdAMemDe (s : State) : Outcome := .next (loadMem .a .de s)

/-- `LD (BC),A` (R85). -/
def execLdMemBcA (s : State) : Outcome := .next (storeReg .bc .a s)

/-- `LD (DE),A` (R86). -/
def execLdMemDeA (s : State) : Outcome := .next (storeReg .de .a s)

/-- `LD BC,n16` (R87). -/
def execLdBcN16 (s : State) : Outcome := .next (loadPairImm .bc s)

/-- `LD DE,n16` (R87). -/
def execLdDeN16 (s : State) : Outcome := .next (loadPairImm .de s)

/-- `LD HL,n16` (R87). -/
def execLdHlN16 (s : State) : Outcome := .next (loadPairImm .hl s)

/-- `LD SP,n16` (R88). -/
def execLdSpN16 (s : State) : Outcome := .next (loadSpImm s)

/-- `LD SP,HL` (R89). -/
def execLdSpHl (s : State) : Outcome := .next (loadSpPair .hl s)

end Sys2Proof.Machine
end

