-- ==== Sys2Proof/Machine/Step.lean ====
section
/-! DEFINITION. One step: fetch, decode, dispatch (spec/43_step_cycle_and_host_interface.md R98 to R103), and the host's way of placing one instruction where the next step fetches. -/

namespace Sys2Proof.Machine

/-- One step (R99 to R102): the opcode byte at PC is fetched and decoded; an unknown opcode raises the decode
error with no state written; else the handler runs, which also leaves PC where R102 says. -/
def step (s : State) : Host.Outcome State Fault Refusal :=
  match decodeOpcode s.fetchOpcode with
  | none => raiseDecodeError s.fetchOpcode s.pc
  | some i => exec i s

/-- The bytes of a table word stored at PC and the two addresses after it, so that the next step fetches and runs
that instruction (log entry 12). Nothing else changes. -/
def State.withFetchWord (s : State) (nbits w : Nat) : State := s.storeBytes s.pc (tableBytes nbits w)

end Sys2Proof.Machine
end

