-- ==== Sys2Proof/Machine/HostInterface.lean ====
section
/-! DEFINITION. The operations the block offers its environment between steps (spec/43_step_cycle_and_host_interface.md R102 to R111): they are no instructions and no part of `step` (log entry 13). -/

namespace Sys2Proof.Machine

/-- What a step or `run_steps` returns to the host: GL's `Result<u16, CpuError>` (R102, R119). -/
inductive StepResult where
  /-- The step completed: the new PC. -/
  | done (pc : Word)
  /-- The decode error with the offending opcode and address (R113). -/
  | error (f : Fault)
  /-- The model gave no meaning. Never happens: every instruction has one. -/
  | refused (r : Refusal)
deriving DecidableEq, Repr

/-- What `load_program` returns (R106, R117). -/
inductive LoadResult where
  | ok
  | loadOverflow
deriving DecidableEq, Repr

/-- `step()` as the host sees it: the state after it and the result (R102, R103); after an error the state is the
one before the step (R115). -/
def hostStep (s : State) : State × StepResult :=
  match step s with
  | .next t => (t, .done t.pc)
  | .fault f => (s, .error f)
  | .refused r => (s, .refused r)

/-- `run_steps(n)`: step `n` times, stopping at the first error; with `n` = 0 it does nothing and returns the
current PC (R104, D14, log entry 14). -/
def runSteps : Nat → State → State × StepResult
  | 0, s => (s, .done s.pc)
  | n + 1, s =>
    match step s with
    | .next t => runSteps n t
    | .fault f => (s, .error f)
    | .refused r => (s, .refused r)

/-- Construction, the only reset (R105, R129). -/
def hostConstruct : State := State.reset

/-- `load_program(bytes, offset)` (R106): all or nothing (R107), and PC is not set. -/
def loadProgram (bytes : List Byte) (offset : Word) (s : State) : State × LoadResult :=
  if offset.toNat + bytes.length > Config.memSize then (s, .loadOverflow)
  else ({ s with mem := Memory.writeBytes s.mem offset.toNat bytes }, .ok)

/-- The eight register names the host can read (R13, R108). -/
inductive HostReg where
  | general (r : Reg)
  | f
deriving DecidableEq, Repr

/-- The four pair views the host can read (R16, R18). -/
inductive HostPair where
  | general (p : Pair)
  | af
deriving DecidableEq, Repr

/-- The host's read of a register: F is the packed byte of the flags (R20, R108). -/
def State.hostReg (s : State) : HostReg → Byte
  | .general r => s.getReg r
  | .f => s.flags.toByte

/-- The host's read of a pair view (R16, R108). -/
def State.hostPair (s : State) : HostPair → Word
  | .general p => s.getPair p
  | .af => joinBytes s.a s.flags.toByte

/-- A write through a pair view, internal to the block: the AF view passes its low byte through `from_byte`
(R16, R18, D4). No instruction and no host operation writes AF. -/
def State.setHostPair (s : State) (v : Word) : HostPair → State
  | .general p => s.setPair p v
  | .af => (s.setReg .a (hiByte v)).setFlags (Flags.ofByte (loByte v))

/-- The host's read of the four flags as Booleans (R108). -/
def State.hostFlags (s : State) : Flags := s.flags

/-- The host's read of PC (R108). -/
def State.hostPc (s : State) : Word := s.pc

/-- The host's read of SP (R108). -/
def State.hostSp (s : State) : Word := s.sp

/-- The host's byte read (R109). -/
def hostReadByte (addr : Word) (s : State) : Byte := s.readByte addr

/-- The host's byte write (R109). -/
def hostWriteByte (addr : Word) (v : Byte) (s : State) : State := s.writeByte addr v

/-- The host's word read (R109). -/
def hostReadWord (addr : Word) (s : State) : Word := s.readWord addr

/-- The host's word write (R109). -/
def hostWriteWord (addr : Word) (v : Word) (s : State) : State := s.writeWord addr v

end Sys2Proof.Machine
end

