-- ==== Sys2Proof/Safety.lean ====
section
/-! DEFINITION. What counts as a sound state and a safe run, in the terms the claims use. -/

namespace Sys2Proof.Machine

/-- The invariant of the model: the memory is in its canonical form, so that addresses are below `MEM_SIZE` and
equal memories are equal data. Every other field of State is legal at every value (R15, R26). -/
def State.Inv (s : State) : Prop := Memory.wf s.mem = true

/-- One move of the environment between steps that changes the state (R109, R111): a step, a program load, or a
memory write. -/
inductive HostMove where
  | step
  | load (bytes : List Byte) (offset : Word)
  | writeByte (addr : Word) (v : Byte)
  | writeWord (addr : Word) (v : Word)
deriving DecidableEq, Repr

/-- The state after a move. -/
def HostMove.apply : HostMove → State → State
  | .step, s => (hostStep s).1
  | .load bytes offset, s => (loadProgram bytes offset s).1
  | .writeByte addr v, s => hostWriteByte addr v s
  | .writeWord addr v, s => hostWriteWord addr v s

/-- The state after a sequence of moves, the first one first. -/
def runMoves : List HostMove → State → State
  | [], s => s
  | m :: ms, s => runMoves ms (m.apply s)

/-- The state with the two flags no instruction reads, N and H, put out of sight (R24). -/
def State.forgetNH (s : State) : State := { s with flags := { s.flags with n := false, h := false } }

/-- The state with SP, which no instruction reads, put out of sight (R25). -/
def State.forgetSp (s : State) : State := { s with sp := 0 }

/-- Two outcomes look the same through a view of the state. -/
def sameThrough (view : State → State) : Outcome → Outcome → Prop
  | .next t, .next t' => view t = view t'
  | .fault f, .fault f' => f = f'
  | .refused r, .refused r' => r = r'
  | _, _ => False

end Sys2Proof.Machine
end

