-- ==== Sys2Proof/Certificates/Slice0/Obligations.lean ====
section
/-! DEFINITION. The statements for the provers, from the numbered rules of spec/. -/

open Sys2Proof Sys2Proof.Machine

/-- The 132 unknown opcodes, row by row as R60 lists them. -/
def Sys2Proof.unknownOpcodes : List Byte :=
  [0x00, 0x07, 0x08, 0x09, 0x0F] ++
  [0x10, 0x17, 0x19, 0x1F] ++
  [0x22, 0x27, 0x29, 0x2A, 0x2F] ++
  [0x32, 0x33, 0x34, 0x35, 0x37, 0x39, 0x3A, 0x3B, 0x3F] ++
  [0x76] ++
  [0x86, 0x88, 0x89, 0x8A, 0x8B, 0x8C, 0x8D, 0x8E, 0x8F] ++
  [0x96, 0x98, 0x99, 0x9A, 0x9B, 0x9C, 0x9D, 0x9E, 0x9F] ++
  [0xA0, 0xA1, 0xA2, 0xA3, 0xA4, 0xA5, 0xA6, 0xA7, 0xA8, 0xA9, 0xAA, 0xAB, 0xAC, 0xAD, 0xAE, 0xAF] ++
  [0xB0, 0xB1, 0xB2, 0xB3, 0xB4, 0xB5, 0xB6, 0xB7, 0xB8, 0xB9, 0xBA, 0xBB, 0xBC, 0xBD, 0xBE, 0xBF] ++
  [0xC0, 0xC1, 0xC4, 0xC5, 0xC6, 0xC7, 0xC8, 0xC9, 0xCB, 0xCC, 0xCD, 0xCE, 0xCF] ++
  [0xD0, 0xD1, 0xD3, 0xD4, 0xD5, 0xD6, 0xD7, 0xD8, 0xD9, 0xDB, 0xDC, 0xDD, 0xDE, 0xDF] ++
  [0xE0, 0xE1, 0xE2, 0xE3, 0xE4, 0xE5, 0xE6, 0xE7, 0xE8, 0xE9, 0xEA, 0xEB, 0xEC, 0xED, 0xEE, 0xEF] ++
  [0xF0, 0xF1, 0xF2, 0xF3, 0xF4, 0xF5, 0xF6, 0xF7, 0xF8, 0xFA, 0xFB, 0xFC, 0xFD, 0xFE, 0xFF]

/-- R58, the byte values by D1 (log entry 1). -/
def Obligations.OpcodeBytesOfEveryForm : Prop :=
  decodeOpcode 0b10000000#8 = some .addAB ∧ decodeOpcode 0b10010101#8 = some .subL ∧
  decodeOpcode 0b00111100#8 = some .incA ∧ decodeOpcode 0b00001101#8 = some .decC ∧
  decodeOpcode 0b00010011#8 = some .incDe ∧ decodeOpcode 0b00101011#8 = some .decHl ∧
  decodeOpcode 0b01000111#8 = some .ldBA ∧ decodeOpcode 0b00100110#8 = some .ldHN8 ∧
  decodeOpcode 0b01011110#8 = some .ldEMemHl ∧ decodeOpcode 0b01110010#8 = some .ldMemHlD ∧
  decodeOpcode 0b00110110#8 = some .ldMemHlN8 ∧ decodeOpcode 0b00001010#8 = some .ldAMemBc ∧
  decodeOpcode 0b00011010#8 = some .ldAMemDe ∧ decodeOpcode 0b00000010#8 = some .ldMemBcA ∧
  decodeOpcode 0b00010010#8 = some .ldMemDeA ∧ decodeOpcode 0b00100001#8 = some .ldHlN16 ∧
  decodeOpcode 0b00110001#8 = some .ldSpN16 ∧ decodeOpcode 0b11111001#8 = some .ldSpHl ∧
  decodeOpcode 0b11000011#8 = some .jpN16 ∧ decodeOpcode 0b11010010#8 = some .jpNcN16 ∧
  decodeOpcode 0b00011000#8 = some .jrE8 ∧ decodeOpcode 0b00101000#8 = some .jrZE8

/-- R52, R56, R58, R61: no bit of an encoding is dropped (log entries 1, 7). -/
def Obligations.DecodeInvertsEncode : Prop :=
  ∀ (i : Instr) (o : Operand) (rest : List Byte), wellFormed i o = true →
    decode (encode i o ++ rest) = .ok i o rest

/-- R52, R58, R59: the other direction of the round trip (log entry 1). -/
def Obligations.EncodeInvertsDecode : Prop :=
  ∀ (bs : List Byte) (i : Instr) (o : Operand) (rest : List Byte), decode bs = .ok i o rest →
    wellFormed i o = true ∧ bs = encode i o ++ rest

/-- R53 to R55 against the table of R58 (log entry 1). -/
def Obligations.FieldReadingGivesOpcodeMap : Prop :=
  ∀ op : Byte, (decodeOpcode op).map Instr.form = decodeFields op

/-- R60 (log entry 1). -/
def Obligations.UnknownOpcodesAreTheListed132 : Prop :=
  (∀ op : Byte, decodeOpcode op = none ↔ op ∈ unknownOpcodes) ∧ unknownOpcodes.length = 132 ∧ unknownOpcodes.Nodup

/-- R66, R90: a combination without an encoding does not exist (log entry 1). -/
def Obligations.AdmittedFormsAreTheTableRows : Prop :=
  (∀ f : Form, f.admitted = true ↔ ∃ i : Instr, i.form = f) ∧ (∀ i j : Instr, i.form = j.form → i = j)

/-- R59 to R61. -/
def Obligations.DecodeLooksAtOpcodeOnly : Prop :=
  ∀ (op : Byte) (bs : List Byte),
    (decodeOpcode op = none → decode (op :: bs) = .unknownOpcode op) ∧
    (∀ i, decodeOpcode op = some i → i.length ≤ bs.length + 1 → ∃ o rest, decode (op :: bs) = .ok i o rest)

/-- R99 to R101. -/
def Obligations.StepRunsDecodedInstruction : Prop :=
  ∀ (s : State) (i : Instr), decodeOpcode (s.readByte s.pc) = some i → step s = exec i s

/-- R56, R99, R101 (log entries 2, 7). -/
def Obligations.StepRunsEncodedBytes : Prop :=
  ∀ (s : State) (i : Instr) (o : Operand), wellFormed i o = true →
    (∀ k : Nat, k < (encode i o).length → some (s.readByte (addrAdd s.pc k)) = (encode i o)[k]?) →
    step s = exec i s ∧ s.fetchOperand i.format = o

/-- R115 (and the report of R113). -/
def Obligations.DecodeErrorExactlyOnUnknownOpcode : Prop :=
  ∀ (s : State) (f : Fault), (step s = .fault f ↔
      decodeOpcode (s.readByte s.pc) = none ∧ f = .decodeError (s.readByte s.pc) s.pc) ∧
    (step s = .fault f → hostStep s = (s, .error f))

/-- R103. -/
def Obligations.StepHasExactlyTwoOutcomes : Prop :=
  ∀ s : State,
    (∃ i t, decodeOpcode (s.readByte s.pc) = some i ∧ exec i s = .next t ∧ hostStep s = (t, .done t.pc)) ∨
    (decodeOpcode (s.readByte s.pc) = none ∧ hostStep s = (s, .error (.decodeError (s.readByte s.pc) s.pc)))

/-- R114. -/
def Obligations.EveryInstructionAlwaysCompletes : Prop :=
  ∀ (i : Instr) (s : State), ∃ t, exec i s = .next t

/-- R115; what run_steps returns on a decode error is R104 by the design choice D14 (log entry 14). -/
def Obligations.DecodeErrorRepeatsForever : Prop :=
  ∀ (s : State) (f : Fault), step s = .fault f → ∀ n : Nat, runSteps (n + 1) s = (s, .error f)

/-- R68. The wrap of PC modulo 2^16 is the spec's decision D7 (log entry 2). -/
def Obligations.AddWritesSumAndFlags : Prop :=
  ∀ (r : Reg) (s : State), ∃ t, exec (.ofAdd r) s = .next t ∧
    t.a.toNat = (s.a.toNat + (s.getReg r).toNat) % 256 ∧
    (t.flags.z = true ↔ t.a = 0) ∧ t.flags.n = false ∧
    (t.flags.h = true ↔ s.a.toNat % 16 + (s.getReg r).toNat % 16 > 0xF) ∧
    (t.flags.c = true ↔ s.a.toNat + (s.getReg r).toNat > 0xFF) ∧
    t.pc.toNat = (s.pc.toNat + 1) % 65536

/-- R69. The wrap of PC modulo 2^16 is the spec's decision D7 (log entry 2). -/
def Obligations.SubWritesDifferenceAndFlags : Prop :=
  ∀ (r : Reg) (s : State), ∃ t, exec (.ofSub r) s = .next t ∧
    (t.a.toNat : Int) = ((s.a.toNat : Int) - (s.getReg r).toNat) % 256 ∧
    (t.flags.z = true ↔ t.a = 0) ∧ t.flags.n = true ∧
    (t.flags.h = true ↔ s.a.toNat % 16 < (s.getReg r).toNat % 16) ∧
    (t.flags.c = true ↔ s.a.toNat < (s.getReg r).toNat) ∧
    t.pc.toNat = (s.pc.toNat + 1) % 65536

/-- R70, N and H by D10 (log entry 5). The wrap of PC modulo 2^16 is the spec's decision D7 (log entry 2). -/
def Obligations.IncRegWritesResultKeepsCarry : Prop :=
  ∀ (r : Reg) (s : State), ∃ t, exec (.ofInc r) s = .next t ∧
    (t.getReg r).toNat = ((s.getReg r).toNat + 1) % 256 ∧
    (t.flags.z = true ↔ t.getReg r = 0) ∧ t.flags.n = false ∧
    (t.flags.h = true ↔ (s.getReg r).toNat % 16 = 0xF) ∧ t.flags.c = s.flags.c ∧
    t.pc.toNat = (s.pc.toNat + 1) % 65536

/-- R71, N and H by D10 (log entry 5). The wrap of PC modulo 2^16 is the spec's decision D7 (log entry 2). -/
def Obligations.DecRegWritesResultKeepsCarry : Prop :=
  ∀ (r : Reg) (s : State), ∃ t, exec (.ofDec r) s = .next t ∧
    ((t.getReg r).toNat : Int) = (((s.getReg r).toNat : Int) - 1) % 256 ∧
    (t.flags.z = true ↔ t.getReg r = 0) ∧ t.flags.n = true ∧
    (t.flags.h = true ↔ (s.getReg r).toNat % 16 = 0) ∧ t.flags.c = s.flags.c ∧
    t.pc.toNat = (s.pc.toNat + 1) % 65536

/-- R72, flags by D9 (log entry 4). The wrap of PC modulo 2^16 is the spec's decision D7 (log entry 2). -/
def Obligations.IncPairAddsOneNoFlags : Prop :=
  ∀ (p : Pair) (s : State), ∃ t, exec (.ofIncPair p) s = .next t ∧
    (t.getPair p).toNat = ((s.getPair p).toNat + 1) % 65536 ∧
    (t.getReg (hiReg p)).toNat * 256 + (t.getReg (loReg p)).toNat = ((s.getPair p).toNat + 1) % 65536 ∧
    t.flags = s.flags ∧ t.pc.toNat = (s.pc.toNat + 1) % 65536

/-- R73, flags by D9 (log entry 4). The wrap of PC modulo 2^16 is the spec's decision D7 (log entry 2). -/
def Obligations.DecPairSubtractsOneNoFlags : Prop :=
  ∀ (p : Pair) (s : State), ∃ t, exec (.ofDecPair p) s = .next t ∧
    ((t.getPair p).toNat : Int) = (((s.getPair p).toNat : Int) - 1) % 65536 ∧
    ((t.getReg (hiReg p)).toNat * 256 + (t.getReg (loReg p)).toNat : Int) = (((s.getPair p).toNat : Int) - 1) % 65536 ∧
    t.flags = s.flags ∧ t.pc.toNat = (s.pc.toNat + 1) % 65536

/-- R69, corner case; F by R20. -/
def Obligations.SubSelfClearsA : Prop :=
  ∀ s : State, ∃ t, exec .subA s = .next t ∧ t.a = 0x00 ∧ t.hostReg .f = 0xC0

/-- R78. The wrap of PC modulo 2^16 is the spec's decision D7 (log entry 2). -/
def Obligations.LoadRegCopiesReg : Prop :=
  ∀ (r r' : Reg) (s : State), ∃ t, exec (.ofLdReg r r') s = .next t ∧
    t.getReg r = s.getReg r' ∧ (∀ q, q ≠ r → t.getReg q = s.getReg q) ∧ t.flags = s.flags ∧ t.sp = s.sp ∧
    (∀ x, t.readByte x = s.readByte x) ∧ t.pc.toNat = (s.pc.toNat + 1) % 65536

/-- R79. The wrap of PC modulo 2^16 is the spec's decision D7 (log entry 2). -/
def Obligations.LoadImmediateByte : Prop :=
  ∀ (r : Reg) (s : State), ∃ t, exec (.ofLdImm r) s = .next t ∧
    t.getReg r = s.readByte (addrAdd s.pc 1) ∧ t.pc.toNat = (s.pc.toNat + 2) % 65536

/-- R80. The wrap of PC modulo 2^16 is the spec's decision D7 (log entry 2). -/
def Obligations.LoadFromHl : Prop :=
  ∀ (r : Reg) (s : State), ∃ t, exec (.ofLdMemHl r) s = .next t ∧
    t.getReg r = s.readByte (s.getPair .hl) ∧ t.pc.toNat = (s.pc.toNat + 1) % 65536

/-- R81. The wrap of PC modulo 2^16 is the spec's decision D7 (log entry 2). -/
def Obligations.StoreRegAtHl : Prop :=
  ∀ (r : Reg) (s : State), ∃ t, exec (.ofStMemHl r) s = .next t ∧
    t.readByte (s.getPair .hl) = s.getReg r ∧ t.pc.toNat = (s.pc.toNat + 1) % 65536

/-- R82. The wrap of PC modulo 2^16 is the spec's decision D7 (log entry 2). -/
def Obligations.StoreImmediateAtHl : Prop :=
  ∀ s : State, ∃ t, exec .ldMemHlN8 s = .next t ∧
    t.readByte (s.getPair .hl) = s.readByte (addrAdd s.pc 1) ∧ t.pc.toNat = (s.pc.toNat + 2) % 65536

/-- R83 to R86. The wrap of PC modulo 2^16 is the spec's decision D7 (log entry 2). -/
def Obligations.AccumulatorLoadsAndStoresAtBcDe : Prop :=
  ∀ s : State,
    (∃ t, exec .ldAMemBc s = .next t ∧ t.a = s.readByte (s.getPair .bc) ∧ t.pc.toNat = (s.pc.toNat + 1) % 65536) ∧
    (∃ t, exec .ldAMemDe s = .next t ∧ t.a = s.readByte (s.getPair .de) ∧ t.pc.toNat = (s.pc.toNat + 1) % 65536) ∧
    (∃ t, exec .ldMemBcA s = .next t ∧ t.readByte (s.getPair .bc) = s.a ∧ t.pc.toNat = (s.pc.toNat + 1) % 65536) ∧
    (∃ t, exec .ldMemDeA s = .next t ∧ t.readByte (s.getPair .de) = s.a ∧ t.pc.toNat = (s.pc.toNat + 1) % 65536)

/-- R87, operand order by D12 (log entry 7). The wrap of PC modulo 2^16 is the spec's decision D7 (log entry 2). -/
def Obligations.LoadPairImmediateWord : Prop :=
  ∀ (p : Pair) (s : State), ∃ t, exec (.ofLdPairImm p) s = .next t ∧
    t.getReg (loReg p) = s.readByte (addrAdd s.pc 1) ∧ t.getReg (hiReg p) = s.readByte (addrAdd s.pc 2) ∧
    t.pc.toNat = (s.pc.toNat + 3) % 65536

/-- R88, R89 (log entry 7). The wrap of PC modulo 2^16 is the spec's decision D7 (log entry 2). -/
def Obligations.StackPointerLoads : Prop :=
  ∀ s : State,
    (∃ t, exec .ldSpN16 s = .next t ∧
      t.sp.toNat = (s.readByte (addrAdd s.pc 1)).toNat + 256 * (s.readByte (addrAdd s.pc 2)).toNat ∧
      t.pc.toNat = (s.pc.toNat + 3) % 65536) ∧
    (∃ t, exec .ldSpHl s = .next t ∧ t.sp.toNat = s.h.toNat * 256 + s.l.toNat ∧
      t.pc.toNat = (s.pc.toNat + 1) % 65536)

/-- R91. -/
def Obligations.ConditionsReadZAndCOnly : Prop :=
  (∀ f : Flags, (condHolds f .nz = true ↔ f.z = false) ∧ (condHolds f .z = true ↔ f.z = true) ∧
      (condHolds f .nc = true ↔ f.c = false) ∧ (condHolds f .c = true ↔ f.c = true) ∧ jumpTaken f none = true) ∧
  (∀ (f g : Flags) (cc : Cond), f.z = g.z → f.c = g.c →
      jumpTaken f (some cc) = condHolds f cc ∧ condHolds f cc = condHolds g cc)

/-- R92, R93 (log entry 7). The wrap of PC modulo 2^16 is the spec's decision D7 (log entry 2). -/
def Obligations.AbsoluteJumpTarget : Prop :=
  ∀ (cc : Option Cond) (s : State), ∃ t, exec (.ofJp cc) s = .next t ∧
    t.pc.toNat = if jumpTaken s.flags cc = true
      then (s.readByte (addrAdd s.pc 1)).toNat + 256 * (s.readByte (addrAdd s.pc 2)).toNat
      else (s.pc.toNat + 3) % 65536

/-- R94, R95 (log entry 7). The wrap of PC modulo 2^16 is the spec's decision D7 (log entry 2). -/
def Obligations.RelativeJumpTarget : Prop :=
  ∀ (cc : Option Cond) (s : State), ∃ t, exec (.ofJr cc) s = .next t ∧
    (t.pc.toNat : Int) = if jumpTaken s.flags cc = true
      then ((s.pc.toNat : Int) + 2 + (s.readByte (addrAdd s.pc 1)).toInt) % 65536
      else ((s.pc.toNat : Int) + 2) % 65536

/-- R97, R27. The wrap of PC and of operand addresses modulo 2^16 is decision D7 (log entry 2). -/
def Obligations.JumpWritesOnlyPc : Prop :=
  (∀ (i : Instr) (s : State), i.form.isJump = true → ∃ t, exec i s = .next t ∧
      (∀ r, t.getReg r = s.getReg r) ∧ t.flags = s.flags ∧ t.sp = s.sp ∧ (∀ x, t.readByte x = s.readByte x)) ∧
  (∀ (cc : Option Cond) (s s' : State), s.pc = s'.pc → jumpTaken s.flags cc = jumpTaken s'.flags cc →
      (s.readByte (addrAdd s.pc 1) = s'.readByte (addrAdd s'.pc 1) →
        ∃ t t', exec (.ofJr cc) s = .next t ∧ exec (.ofJr cc) s' = .next t' ∧ t.pc = t'.pc) ∧
      (s.readByte (addrAdd s.pc 1) = s'.readByte (addrAdd s'.pc 1) →
        s.readByte (addrAdd s.pc 2) = s'.readByte (addrAdd s'.pc 2) →
        ∃ t t', exec (.ofJp cc) s = .next t ∧ exec (.ofJp cc) s' = .next t' ∧ t.pc = t'.pc)) ∧
  (∀ (i : Instr) (s : State), i.form.isJump = false →
      ∃ t, exec i s = .next t ∧ t.pc.toNat = (s.pc.toNat + i.length) % 65536)

/-- R138, R94, R110; opcode byte and displacement by D1 and D11 (log entries 1, 7), PC at 0xFFFF by D7 (log entry 2),
the value run_steps returns, also for n = 0, is R104 by D14 (log entry 14). -/
def Obligations.SelfJumpHoldsForever : Prop :=
  ∀ s : State, s.readByte s.pc = 0x18 → s.readByte (addrAdd s.pc 1) = 0xFE →
    ∀ n : Nat, runSteps n s = (s, .done s.pc)

/-- R14, R25, R67. -/
def Obligations.ByteArithmeticFrame : Prop :=
  ∀ (r : Reg) (s : State),
    (∃ t, exec (.ofAdd r) s = .next t ∧ (∀ q, q ≠ .a → t.getReg q = s.getReg q) ∧ t.sp = s.sp ∧ (∀ x, t.readByte x = s.readByte x)) ∧
    (∃ t, exec (.ofSub r) s = .next t ∧ (∀ q, q ≠ .a → t.getReg q = s.getReg q) ∧ t.sp = s.sp ∧ (∀ x, t.readByte x = s.readByte x)) ∧
    (∃ t, exec (.ofInc r) s = .next t ∧ (∀ q, q ≠ r → t.getReg q = s.getReg q) ∧ t.sp = s.sp ∧ (∀ x, t.readByte x = s.readByte x)) ∧
    (∃ t, exec (.ofDec r) s = .next t ∧ (∀ q, q ≠ r → t.getReg q = s.getReg q) ∧ t.sp = s.sp ∧ (∀ x, t.readByte x = s.readByte x))

/-- R72, R73, R87 (log entry 4). -/
def Obligations.PairArithmeticAndLoadFrame : Prop :=
  ∀ (p : Pair) (i : Instr) (s : State), i = .ofIncPair p ∨ i = .ofDecPair p ∨ i = .ofLdPairImm p →
    ∃ t, exec i s = .next t ∧ (∀ q, q ≠ hiReg p → q ≠ loReg p → t.getReg q = s.getReg q) ∧
      t.flags = s.flags ∧ t.sp = s.sp ∧ (∀ x, t.readByte x = s.readByte x)

/-- R77, R79, R80, R83, R84. -/
def Obligations.ByteLoadFrame : Prop :=
  (∀ (r : Reg) (i : Instr) (s : State), i = .ofLdImm r ∨ i = .ofLdMemHl r →
    ∃ t, exec i s = .next t ∧ (∀ q, q ≠ r → t.getReg q = s.getReg q) ∧ t.flags = s.flags ∧ t.sp = s.sp ∧ (∀ x, t.readByte x = s.readByte x)) ∧
  (∀ (i : Instr) (s : State), i = .ldAMemBc ∨ i = .ldAMemDe →
    ∃ t, exec i s = .next t ∧ (∀ q, q ≠ .a → t.getReg q = s.getReg q) ∧ t.flags = s.flags ∧ t.sp = s.sp ∧ (∀ x, t.readByte x = s.readByte x))

/-- R36, R77, R81, R82, R85, R86. -/
def Obligations.StoreFrame : Prop :=
  (∀ (i : Instr) (s : State), (i = .ldMemHlN8 ∨ ∃ r, i = .ofStMemHl r) →
    ∃ t, exec i s = .next t ∧ (∀ q, t.getReg q = s.getReg q) ∧ t.flags = s.flags ∧ t.sp = s.sp ∧
      (∀ a, s.getPair .hl = a → ∀ x, x ≠ a → t.readByte x = s.readByte x)) ∧
  (∀ s : State, ∃ t, exec .ldMemBcA s = .next t ∧ (∀ q, t.getReg q = s.getReg q) ∧ t.flags = s.flags ∧ t.sp = s.sp ∧
      (∀ a, s.getPair .bc = a → ∀ x, x ≠ a → t.readByte x = s.readByte x)) ∧
  (∀ s : State, ∃ t, exec .ldMemDeA s = .next t ∧ (∀ q, t.getReg q = s.getReg q) ∧ t.flags = s.flags ∧ t.sp = s.sp ∧
      (∀ a, s.getPair .de = a → ∀ x, x ≠ a → t.readByte x = s.readByte x))

/-- R77, R88, R89. -/
def Obligations.StackPointerLoadFrame : Prop :=
  ∀ (i : Instr) (s : State), i = .ldSpN16 ∨ i = .ldSpHl →
    ∃ t, exec i s = .next t ∧ (∀ q, t.getReg q = s.getReg q) ∧ t.flags = s.flags ∧ (∀ x, t.readByte x = s.readByte x)

/-- R16 (a write through AF is R18, stated in FlagsRoundTrip). -/
def Obligations.PairsAreViewsOfTheirHalves : Prop :=
  (∀ s : State, (s.hostPair (.general .bc)).toNat = s.b.toNat * 256 + s.c.toNat ∧
      (s.hostPair (.general .de)).toNat = s.d.toNat * 256 + s.e.toNat ∧
      (s.hostPair (.general .hl)).toNat = s.h.toNat * 256 + s.l.toNat ∧
      (s.hostPair .af).toNat = s.a.toNat * 256 + (s.hostReg .f).toNat) ∧
  (∀ (s : State) (v : Word),
      s.setPair .bc v = { s with b := v.extractLsb' 8 8, c := v.extractLsb' 0 8 } ∧
      s.setPair .de v = { s with d := v.extractLsb' 8 8, e := v.extractLsb' 0 8 } ∧
      s.setPair .hl v = { s with h := v.extractLsb' 8 8, l := v.extractLsb' 0 8 }) ∧
  (∀ (s : State) (v : Word) (p : Pair), (s.setPair p v).getPair p = v)

/-- R20. -/
def Obligations.FlagsPackIntoHighNibble : Prop :=
  ∀ s : State,
    (s.hostReg .f).toNat = (if s.flags.z then 0x80 else 0) + (if s.flags.n then 0x40 else 0) +
      (if s.flags.h then 0x20 else 0) + (if s.flags.c then 0x10 else 0) ∧
    s.hostReg .f &&& 0x0F = 0 ∧ ∃ k : Nat, k < 16 ∧ (s.hostReg .f).toNat = 16 * k

/-- R21, R22, and R18 for the AF view (log entry 6). -/
def Obligations.FlagsRoundTrip : Prop :=
  (∀ f : Flags, Flags.ofByte f.toByte = f) ∧ (∀ b : Byte, (Flags.ofByte b).toByte = b &&& 0xF0) ∧
  (∀ b : Byte, Flags.ofByte b = { z := b.getLsbD 7, n := b.getLsbD 6, h := b.getLsbD 5, c := b.getLsbD 4 }) ∧
  (∀ (s : State) (v : Word), s.setHostPair v .af =
      { s with a := v.extractLsb' 8 8, flags := Flags.ofByte (v.extractLsb' 0 8) })

/-- R76. -/
def Obligations.FlagsByteLowNibbleStaysZero : Prop :=
  ∀ (i : Instr) (s : State), ∃ t, exec i s = .next t ∧ t.hostReg .f &&& 0x0F = 0

/-- R34, R105; SP by D6 (log entry 3). -/
def Obligations.ConstructionResetsEverything : Prop :=
  (∀ sp : Word, (∀ r, (State.construct sp).getReg r = 0) ∧ (State.construct sp).hostReg .f = 0 ∧
      (State.construct sp).flags = { z := false, n := false, h := false, c := false } ∧
      (State.construct sp).pc = 0x0000 ∧ (State.construct sp).sp = sp ∧ ∀ x, (State.construct sp).readByte x = 0x00) ∧
  State.reset = State.construct 0xFFFF

/-- R133 (the first step), R62 by D2 (log entry 1); what run_steps returns for longer runs is R104 by D14 (log entry 14). -/
def Obligations.EmptyCoreReportsDecodeError : Prop :=
  ∀ (sp : Word) (n : Nat), runSteps (n + 1) (State.construct sp) = (State.construct sp, .error (.decodeError 0x00 0x0000))

/-- R35, R36. -/
def Obligations.ByteWriteChangesOneByte : Prop :=
  (∀ (s : State) (addr : Word) (v : Byte), (s.writeByte addr v).readByte addr = v ∧
      (∀ x, x ≠ addr → (s.writeByte addr v).readByte x = s.readByte x) ∧
      (∀ r, (s.writeByte addr v).getReg r = s.getReg r) ∧ (s.writeByte addr v).flags = s.flags ∧
      (s.writeByte addr v).sp = s.sp ∧ (s.writeByte addr v).pc = s.pc) ∧
  (∀ (s : State) (addr : Word), s.readByte addr = Memory.read s.mem addr.toNat)

/-- R37 to R40 (log entry 2). -/
def Obligations.WordAccessIsLittleEndianAndWraps : Prop :=
  (∀ (s : State) (addr : Word),
      (s.readWord addr).toNat = (s.readByte addr).toNat + 256 * (s.readByte (addrAdd addr 1)).toNat) ∧
  (∀ (s : State) (addr v : Word),
      (s.writeWord addr v).readByte addr = v.extractLsb' 0 8 ∧
      (s.writeWord addr v).readByte (addrAdd addr 1) = v.extractLsb' 8 8 ∧
      (∀ x, x ≠ addr → x ≠ addrAdd addr 1 → (s.writeWord addr v).readByte x = s.readByte x) ∧
      (s.writeWord addr v).readWord addr = v) ∧
  addrAdd 0xFFFF 1 = 0x0000

/-- R51, R135. -/
def Obligations.StoreIsSeenByNextFetch : Prop :=
  ∀ (r : Reg) (s t : State), exec (.ofStMemHl r) s = .next t → t.pc = s.getPair .hl →
    (∀ i, decodeOpcode (s.getReg r) = some i → step t = exec i t) ∧
    (decodeOpcode (s.getReg r) = none → step t = .fault (.decodeError (s.getReg r) t.pc))

/-- R106; exact fit and empty by D15 (log entry 14). -/
def Obligations.LoadProgramCopiesOrRefuses : Prop :=
  ∀ (bytes : List Byte) (offset : Word) (s : State),
    (65536 < offset.toNat + bytes.length → loadProgram bytes offset s = (s, .loadOverflow)) ∧
    (offset.toNat + bytes.length ≤ 65536 → ∃ t, loadProgram bytes offset s = (t, .ok) ∧
      (∀ (k : Nat) (x : Word), k < bytes.length → x.toNat = offset.toNat + k → bytes[k]? = some (t.readByte x)) ∧
      (∀ x : Word, x.toNat < offset.toNat ∨ offset.toNat + bytes.length ≤ x.toNat → t.readByte x = s.readByte x) ∧
      (∀ r, t.getReg r = s.getReg r) ∧ t.flags = s.flags ∧ t.sp = s.sp ∧ t.pc = s.pc)

/-- R107. -/
def Obligations.FailingLoadWritesNothing : Prop :=
  (∀ (bytes : List Byte) (offset : Word) (s t : State), loadProgram bytes offset s = (t, .loadOverflow) → t = s) ∧
  (∀ (bytes : List Byte) (s : State), bytes.length = 10 →
      loadProgram bytes 0xFFF8 s = (s, .loadOverflow) ∧
      ∃ t, loadProgram bytes 0x0100 s = (t, .ok) ∧
        ∀ k : Nat, k < 10 → bytes[k]? = some (t.readByte (addrAdd 0x0100 k)))

/-- R104 by D14 (log entry 14). -/
def Obligations.RunStepsStopsAtFirstError : Prop :=
  ∀ (n : Nat) (s : State),
    (∃ t : State, Host.Core.run core n s = .next t ∧ runSteps n s = (t, .done t.pc)) ∨
    (∃ (k : Nat) (t : State) (f : Fault), k < n ∧ Host.Core.run core k s = .next t ∧ step t = .fault f ∧
      runSteps n s = (t, .error f))

/-- R24, R77 (log entry 4). -/
def Obligations.OnlyByteArithmeticWritesFlags : Prop :=
  ∀ (i : Instr) (s : State), i.form.isArith8 = false → ∃ t, exec i s = .next t ∧ t.flags = s.flags

/-- R25. -/
def Obligations.OnlySpLoadsWriteSp : Prop :=
  ∀ (i : Instr) (s : State), i ≠ .ldSpN16 → i ≠ .ldSpHl → ∃ t, exec i s = .next t ∧ t.sp = s.sp

/-- R42. -/
def Obligations.OnlyStoresWriteMemory : Prop :=
  ∀ (i : Instr) (s : State), i.form.isStore = false → ∃ t, exec i s = .next t ∧ ∀ x, t.readByte x = s.readByte x

/-- R14. -/
def Obligations.RegistersChangeOnlyWhenNamed : Prop :=
  ∀ (i : Instr) (s : State) (q : Reg), i.form.writesReg q = false → ∃ t, exec i s = .next t ∧ t.getReg q = s.getReg q

/-- R29, R47: the model's representation of the 64KB array (log entry 8). -/
def Obligations.StepKeepsCanonicalMemory : Prop :=
  ∀ s t : State, s.Inv → step s = .next t → t.Inv

/-- R34 (log entries 3, 8). -/
def Obligations.ResetMemoryIsCanonical : Prop :=
  (∀ sp : Word, (State.construct sp).Inv) ∧ State.reset.Inv

/-- R106, R109, R111 (log entries 8, 13). -/
def Obligations.HostMovesKeepCanonicalMemory : Prop :=
  ∀ (ms : List HostMove) (s : State), s.Inv → (runMoves ms s).Inv

/-- R24: no instruction reads N or H. The result compared is the one of run_steps (R104 by D14, log entry 14). -/
def Obligations.FlagsNAndHNeverInfluenceARun : Prop :=
  ∀ (n : Nat) (s s' : State), s.forgetNH = s'.forgetNH →
    (runSteps n s).2 = (runSteps n s').2 ∧ (runSteps n s).1.forgetNH = (runSteps n s').1.forgetNH

/-- R25, R132. The result compared is the one of run_steps (R104 by D14, log entry 14). -/
def Obligations.StackPointerNeverInfluencesARun : Prop :=
  ∀ (n : Nat) (s s' : State), s.forgetSp = s'.forgetSp →
    (runSteps n s).2 = (runSteps n s').2 ∧ (runSteps n s).1.forgetSp = (runSteps n s').1.forgetSp

/-- R116, R115: the core stays ready and repeats the error by D13 (log entry 10), the host mends the byte by R109 with D20 (log entry 13). -/
def Obligations.HostStepsRepeatDecodeError : Prop :=
  ∀ (s : State) (f : Fault), step s = .fault f →
    (∀ n : Nat, runMoves (List.replicate n .step) s = s ∧ hostStep (runMoves (List.replicate n .step) s) = (s, .error f)) ∧
    (∀ (op : Byte) (i : Instr), decodeOpcode op = some i →
      step (hostWriteByte s.pc op s) = exec i (hostWriteByte s.pc op s))
end

