-- ==== Sys2Proof/Laws/State.lean ====
section
/-! SUPPORT. One lemma per field per update of the state, so that no proof unfolds a record update. -/

namespace Sys2Proof.Machine

@[simp] theorem State.setFlags_a (s : State) (f : Flags) : (s.setFlags f).a = s.a := rfl
@[simp] theorem State.setFlags_b (s : State) (f : Flags) : (s.setFlags f).b = s.b := rfl
@[simp] theorem State.setFlags_c (s : State) (f : Flags) : (s.setFlags f).c = s.c := rfl
@[simp] theorem State.setFlags_d (s : State) (f : Flags) : (s.setFlags f).d = s.d := rfl
@[simp] theorem State.setFlags_e (s : State) (f : Flags) : (s.setFlags f).e = s.e := rfl
@[simp] theorem State.setFlags_h (s : State) (f : Flags) : (s.setFlags f).h = s.h := rfl
@[simp] theorem State.setFlags_l (s : State) (f : Flags) : (s.setFlags f).l = s.l := rfl
@[simp] theorem State.setFlags_flags (s : State) (f : Flags) : (s.setFlags f).flags = f := rfl
@[simp] theorem State.setFlags_sp (s : State) (f : Flags) : (s.setFlags f).sp = s.sp := rfl
@[simp] theorem State.setFlags_pc (s : State) (f : Flags) : (s.setFlags f).pc = s.pc := rfl
@[simp] theorem State.setFlags_mem (s : State) (f : Flags) : (s.setFlags f).mem = s.mem := rfl
@[simp] theorem State.setFlags_getReg (s : State) (f : Flags) (r : Reg) : (s.setFlags f).getReg r = s.getReg r := by cases r <;> rfl
@[simp] theorem State.setFlags_getPair (s : State) (f : Flags) (p : Pair) : (s.setFlags f).getPair p = s.getPair p := by cases p <;> rfl
@[simp] theorem State.setFlags_readByte (s : State) (f : Flags) (x : Word) : (s.setFlags f).readByte x = s.readByte x := rfl

@[simp] theorem State.setSp_a (s : State) (v : Word) : (s.setSp v).a = s.a := rfl
@[simp] theorem State.setSp_b (s : State) (v : Word) : (s.setSp v).b = s.b := rfl
@[simp] theorem State.setSp_c (s : State) (v : Word) : (s.setSp v).c = s.c := rfl
@[simp] theorem State.setSp_d (s : State) (v : Word) : (s.setSp v).d = s.d := rfl
@[simp] theorem State.setSp_e (s : State) (v : Word) : (s.setSp v).e = s.e := rfl
@[simp] theorem State.setSp_h (s : State) (v : Word) : (s.setSp v).h = s.h := rfl
@[simp] theorem State.setSp_l (s : State) (v : Word) : (s.setSp v).l = s.l := rfl
@[simp] theorem State.setSp_flags (s : State) (v : Word) : (s.setSp v).flags = s.flags := rfl
@[simp] theorem State.setSp_sp (s : State) (v : Word) : (s.setSp v).sp = v := rfl
@[simp] theorem State.setSp_pc (s : State) (v : Word) : (s.setSp v).pc = s.pc := rfl
@[simp] theorem State.setSp_mem (s : State) (v : Word) : (s.setSp v).mem = s.mem := rfl
@[simp] theorem State.setSp_getReg (s : State) (v : Word) (r : Reg) : (s.setSp v).getReg r = s.getReg r := by cases r <;> rfl
@[simp] theorem State.setSp_getPair (s : State) (v : Word) (p : Pair) : (s.setSp v).getPair p = s.getPair p := by cases p <;> rfl
@[simp] theorem State.setSp_readByte (s : State) (v : Word) (x : Word) : (s.setSp v).readByte x = s.readByte x := rfl

@[simp] theorem State.setPc_a (s : State) (v : Word) : (s.setPc v).a = s.a := rfl
@[simp] theorem State.setPc_b (s : State) (v : Word) : (s.setPc v).b = s.b := rfl
@[simp] theorem State.setPc_c (s : State) (v : Word) : (s.setPc v).c = s.c := rfl
@[simp] theorem State.setPc_d (s : State) (v : Word) : (s.setPc v).d = s.d := rfl
@[simp] theorem State.setPc_e (s : State) (v : Word) : (s.setPc v).e = s.e := rfl
@[simp] theorem State.setPc_h (s : State) (v : Word) : (s.setPc v).h = s.h := rfl
@[simp] theorem State.setPc_l (s : State) (v : Word) : (s.setPc v).l = s.l := rfl
@[simp] theorem State.setPc_flags (s : State) (v : Word) : (s.setPc v).flags = s.flags := rfl
@[simp] theorem State.setPc_sp (s : State) (v : Word) : (s.setPc v).sp = s.sp := rfl
@[simp] theorem State.setPc_pc (s : State) (v : Word) : (s.setPc v).pc = v := rfl
@[simp] theorem State.setPc_mem (s : State) (v : Word) : (s.setPc v).mem = s.mem := rfl
@[simp] theorem State.setPc_getReg (s : State) (v : Word) (r : Reg) : (s.setPc v).getReg r = s.getReg r := by cases r <;> rfl
@[simp] theorem State.setPc_getPair (s : State) (v : Word) (p : Pair) : (s.setPc v).getPair p = s.getPair p := by cases p <;> rfl
@[simp] theorem State.setPc_readByte (s : State) (v : Word) (x : Word) : (s.setPc v).readByte x = s.readByte x := rfl

@[simp] theorem State.advance_a (s : State) (k : Nat) : (s.advance k).a = s.a := rfl
@[simp] theorem State.advance_b (s : State) (k : Nat) : (s.advance k).b = s.b := rfl
@[simp] theorem State.advance_c (s : State) (k : Nat) : (s.advance k).c = s.c := rfl
@[simp] theorem State.advance_d (s : State) (k : Nat) : (s.advance k).d = s.d := rfl
@[simp] theorem State.advance_e (s : State) (k : Nat) : (s.advance k).e = s.e := rfl
@[simp] theorem State.advance_h (s : State) (k : Nat) : (s.advance k).h = s.h := rfl
@[simp] theorem State.advance_l (s : State) (k : Nat) : (s.advance k).l = s.l := rfl
@[simp] theorem State.advance_flags (s : State) (k : Nat) : (s.advance k).flags = s.flags := rfl
@[simp] theorem State.advance_sp (s : State) (k : Nat) : (s.advance k).sp = s.sp := rfl
@[simp] theorem State.advance_pc (s : State) (k : Nat) : (s.advance k).pc = addrAdd s.pc k := rfl
@[simp] theorem State.advance_mem (s : State) (k : Nat) : (s.advance k).mem = s.mem := rfl
@[simp] theorem State.advance_getReg (s : State) (k : Nat) (r : Reg) : (s.advance k).getReg r = s.getReg r := by cases r <;> rfl
@[simp] theorem State.advance_getPair (s : State) (k : Nat) (p : Pair) : (s.advance k).getPair p = s.getPair p := by cases p <;> rfl
@[simp] theorem State.advance_readByte (s : State) (k : Nat) (x : Word) : (s.advance k).readByte x = s.readByte x := rfl

@[simp] theorem State.writeByte_a (s : State) (x : Word) (v : Byte) : (s.writeByte x v).a = s.a := rfl
@[simp] theorem State.writeByte_b (s : State) (x : Word) (v : Byte) : (s.writeByte x v).b = s.b := rfl
@[simp] theorem State.writeByte_c (s : State) (x : Word) (v : Byte) : (s.writeByte x v).c = s.c := rfl
@[simp] theorem State.writeByte_d (s : State) (x : Word) (v : Byte) : (s.writeByte x v).d = s.d := rfl
@[simp] theorem State.writeByte_e (s : State) (x : Word) (v : Byte) : (s.writeByte x v).e = s.e := rfl
@[simp] theorem State.writeByte_h (s : State) (x : Word) (v : Byte) : (s.writeByte x v).h = s.h := rfl
@[simp] theorem State.writeByte_l (s : State) (x : Word) (v : Byte) : (s.writeByte x v).l = s.l := rfl
@[simp] theorem State.writeByte_flags (s : State) (x : Word) (v : Byte) : (s.writeByte x v).flags = s.flags := rfl
@[simp] theorem State.writeByte_sp (s : State) (x : Word) (v : Byte) : (s.writeByte x v).sp = s.sp := rfl
@[simp] theorem State.writeByte_pc (s : State) (x : Word) (v : Byte) : (s.writeByte x v).pc = s.pc := rfl
@[simp] theorem State.writeByte_mem (s : State) (x : Word) (v : Byte) : (s.writeByte x v).mem = Memory.write s.mem x.toNat v := rfl
@[simp] theorem State.writeByte_getReg (s : State) (x : Word) (v : Byte) (r : Reg) : (s.writeByte x v).getReg r = s.getReg r := by cases r <;> rfl
@[simp] theorem State.writeByte_getPair (s : State) (x : Word) (v : Byte) (p : Pair) : (s.writeByte x v).getPair p = s.getPair p := by cases p <;> rfl

@[simp] theorem State.setReg_flags (s : State) (r : Reg) (v : Byte) : (s.setReg r v).flags = s.flags := by cases r <;> rfl
@[simp] theorem State.setReg_sp (s : State) (r : Reg) (v : Byte) : (s.setReg r v).sp = s.sp := by cases r <;> rfl
@[simp] theorem State.setReg_pc (s : State) (r : Reg) (v : Byte) : (s.setReg r v).pc = s.pc := by cases r <;> rfl
@[simp] theorem State.setReg_mem (s : State) (r : Reg) (v : Byte) : (s.setReg r v).mem = s.mem := by cases r <;> rfl
@[simp] theorem State.setReg_readByte (s : State) (r : Reg) (v : Byte) (x : Word) : (s.setReg r v).readByte x = s.readByte x := by cases r <;> rfl
@[simp] theorem State.setReg_getReg_same (s : State) (r : Reg) (v : Byte) : (s.setReg r v).getReg r = v := by cases r <;> rfl
theorem State.setReg_getReg (s : State) (r q : Reg) (v : Byte) :
    (s.setReg r v).getReg q = if q = r then v else s.getReg q := by
  cases r <;> cases q <;> rfl

theorem State.setReg_getReg_ne (s : State) (r q : Reg) (v : Byte) (h : q ≠ r) : (s.setReg r v).getReg q = s.getReg q := by
  rw [State.setReg_getReg, if_neg h]

@[simp] theorem State.setPair_flags (s : State) (p : Pair) (v : Word) : (s.setPair p v).flags = s.flags := by cases p <;> rfl
@[simp] theorem State.setPair_sp (s : State) (p : Pair) (v : Word) : (s.setPair p v).sp = s.sp := by cases p <;> rfl
@[simp] theorem State.setPair_pc (s : State) (p : Pair) (v : Word) : (s.setPair p v).pc = s.pc := by cases p <;> rfl
@[simp] theorem State.setPair_mem (s : State) (p : Pair) (v : Word) : (s.setPair p v).mem = s.mem := by cases p <;> rfl
@[simp] theorem State.setPair_readByte (s : State) (p : Pair) (v : Word) (x : Word) : (s.setPair p v).readByte x = s.readByte x := by cases p <;> rfl

/-- A pair write changes the two halves and no other register (R16). -/
theorem State.setPair_getReg (s : State) (p : Pair) (v : Word) (q : Reg) :
    (s.setPair p v).getReg q = if q = hiReg p then hiByte v else if q = loReg p then loByte v else s.getReg q := by
  cases p <;> cases q <;> rfl

/-- Two states with the same registers, flags, SP, PC and memory are the same state (R33). -/
theorem State.ext_parts {s t : State} (hr : ∀ r, s.getReg r = t.getReg r) (hf : s.flags = t.flags) (hsp : s.sp = t.sp)
    (hpc : s.pc = t.pc) (hm : s.mem = t.mem) : s = t := by
  have ha := hr .a
  have hb := hr .b
  have hc := hr .c
  have hd := hr .d
  have he := hr .e
  have hh := hr .h
  have hl := hr .l
  cases s
  cases t
  simp only [State.getReg] at ha hb hc hd he hh hl
  simp_all

end Sys2Proof.Machine
end

