-- ==== Sys2Proof/Laws/Words.lean ====
section
/-! SUPPORT. What the word operations do, in the integers of the spec's pseudocode. -/

namespace Sys2Proof

/-- The high byte of a word joined from two bytes. -/
@[simp] theorem hiByte_joinBytes (hi lo : Byte) : hiByte (joinBytes hi lo) = hi := by
  apply BitVec.eq_of_toNat_eq
  have h1 := hi.isLt
  have h2 := lo.isLt
  simp only [hiByte, joinBytes, BitVec.toNat_ofNat]
  omega

/-- The low byte of a word joined from two bytes. -/
@[simp] theorem loByte_joinBytes (hi lo : Byte) : loByte (joinBytes hi lo) = lo := by
  apply BitVec.eq_of_toNat_eq
  have h1 := hi.isLt
  have h2 := lo.isLt
  simp only [loByte, joinBytes, BitVec.toNat_ofNat]
  omega

/-- A word is its two bytes joined. -/
@[simp] theorem joinBytes_hiByte_loByte (v : Word) : joinBytes (hiByte v) (loByte v) = v := by
  apply BitVec.eq_of_toNat_eq
  have h := v.isLt
  simp only [hiByte, loByte, joinBytes, BitVec.toNat_ofNat]
  omega

/-- A joined word in numbers (R16, R37). -/
theorem joinBytes_toNat (hi lo : Byte) : (joinBytes hi lo).toNat = hi.toNat * 256 + lo.toNat := by
  have h1 := hi.isLt
  have h2 := lo.isLt
  simp only [joinBytes, BitVec.toNat_ofNat]
  omega

/-- `v[15:8]` as a slice of bits (R6). -/
theorem hiByte_eq_extract (v : Word) : hiByte v = v.extractLsb' 8 8 := by
  apply BitVec.eq_of_toNat_eq
  simp [hiByte, Nat.shiftRight_eq_div_pow]

/-- `v[7:0]` as a slice of bits (R6). -/
theorem loByte_eq_extract (v : Word) : loByte v = v.extractLsb' 0 8 := by
  apply BitVec.eq_of_toNat_eq
  simp [loByte]

namespace Machine

/-- The wrapping sum of R28. -/
theorem addrAdd_toNat (a : Word) (k : Nat) : (addrAdd a k).toNat = (a.toNat + k) % 65536 := by
  simp [addrAdd]

/-- Two wrapping sums are one. -/
theorem addrAdd_addrAdd (a : Word) (j k : Nat) : addrAdd (addrAdd a j) k = addrAdd a (j + k) := by
  apply BitVec.eq_of_toNat_eq
  simp only [addrAdd_toNat]
  omega

/-- Addresses less than a memory's length apart are different. -/
theorem addrAdd_ne (a : Word) (j k : Nat) (hj : j < 65536) (hk : k < 65536) (h : j ≠ k) : addrAdd a j ≠ addrAdd a k := by
  intro e
  have := congrArg BitVec.toNat e
  simp only [addrAdd_toNat] at this
  have := a.isLt
  omega

/-- The wrapping difference of R73. -/
theorem wordDec_toNat (a : Word) : (wordDec a).toNat = (a.toNat + 65535) % 65536 := by
  have := a.isLt
  simp only [wordDec, BitVec.toNat_ofInt]
  omega

/-- The 8-bit sum of R68. -/
theorem add8_toNat (a v : Byte) : (add8 a v).toNat = (a.toNat + v.toNat) % 256 := by
  simp [add8]

/-- The 8-bit difference of R69. -/
theorem sub8_toNat (a v : Byte) : (sub8 a v).toNat = (a.toNat + 256 - v.toNat) % 256 := by
  have := a.isLt
  have := v.isLt
  simp only [sub8, BitVec.toNat_ofInt]
  omega

/-- The flags of R68 as propositions. -/
theorem addFlags_iff (a v : Byte) : ((addFlags a v).z = true ↔ add8 a v = 0) ∧ (addFlags a v).n = false ∧
    ((addFlags a v).h = true ↔ a.toNat % 16 + v.toNat % 16 > 0xF) ∧ ((addFlags a v).c = true ↔ a.toNat + v.toNat > 0xFF) :=
  ⟨decide_eq_true_iff, rfl, decide_eq_true_iff, decide_eq_true_iff⟩

/-- The flags of R69 as propositions. -/
theorem subFlags_iff (a v : Byte) : ((subFlags a v).z = true ↔ sub8 a v = 0) ∧ (subFlags a v).n = true ∧
    ((subFlags a v).h = true ↔ a.toNat % 16 < v.toNat % 16) ∧ ((subFlags a v).c = true ↔ a.toNat < v.toNat) :=
  ⟨decide_eq_true_iff, rfl, decide_eq_true_iff, decide_eq_true_iff⟩

/-- The flags of R70 as propositions. -/
theorem incFlags_iff (f : Flags) (v : Byte) : ((incFlags f v).z = true ↔ add8 v 1 = 0) ∧ (incFlags f v).n = false ∧
    ((incFlags f v).h = true ↔ v.toNat % 16 = 0xF) ∧ (incFlags f v).c = f.c :=
  ⟨decide_eq_true_iff, rfl, decide_eq_true_iff, rfl⟩

/-- The flags of R71 as propositions. -/
theorem decFlags_iff (f : Flags) (v : Byte) : ((decFlags f v).z = true ↔ sub8 v 1 = 0) ∧ (decFlags f v).n = true ∧
    ((decFlags f v).h = true ↔ v.toNat % 16 = 0) ∧ (decFlags f v).c = f.c :=
  ⟨decide_eq_true_iff, rfl, decide_eq_true_iff, rfl⟩

/-- A byte is zero exactly when its number is. -/
theorem byte_eq_zero_iff (v : Byte) : v = 0 ↔ v.toNat = 0 := by
  constructor
  · rintro rfl
    rfl
  · intro h
    exact BitVec.eq_of_toNat_eq (by simpa using h)

/-- The relative target of R94. -/
theorem relTarget_toNat (s : State) : (s.relTarget.toNat : Int) = ((s.pc.toNat : Int) + 2 + s.fetchN8.toInt) % 65536 := by
  simp only [State.relTarget, BitVec.toNat_ofInt]
  omega

end Machine

end Sys2Proof
end

