-- ==== Sys2Proof/Laws/Memory.lean ====
section
/-! SUPPORT. Reads after writes, and the canonical form that every memory operation keeps (spec/20_memory.md R35 to R46). -/

namespace Sys2Proof.Machine

theorem Memory.read_erase (m : Memory) (a x : Nat) :
    Memory.read (Memory.erase m a) x = if x = a then Config.unwritten else Memory.read m x := by
  induction m with
  | nil => simp [Memory.erase, Memory.read]
  | cons head rest ih =>
    obtain ⟨k, v⟩ := head
    by_cases hk : k = a
    · subst hk
      simp only [Memory.erase, if_pos, ih, Memory.read]
      by_cases hx : x = k
      · simp [hx]
      · have hne : ¬k = x := fun e => hx e.symm
        simp [hx, hne]
    · simp only [Memory.erase, if_neg hk, Memory.read, ih]
      by_cases hx : k = x
      · subst hx
        simp [hk]
      · simp [hx]

/-- After an erase nothing is listed at the address. -/
theorem Memory.erase_free (m : Memory) (a : Nat) : ∀ c ∈ Memory.erase m a, c.1 ≠ a := by
  induction m with
  | nil => simp [Memory.erase]
  | cons head rest ih =>
    obtain ⟨k, w⟩ := head
    by_cases hk : k = a
    · simpa [Memory.erase, hk] using ih
    · simpa [Memory.erase, hk] using ih

theorem Memory.read_insert (m : Memory) (a x : Nat) (v : Byte) (hfree : ∀ c ∈ m, c.1 ≠ a) :
    Memory.read (Memory.insert m a v) x = if x = a then v else Memory.read m x := by
  induction m with
  | nil =>
    simp only [Memory.insert, Memory.read]
    by_cases hx : x = a
    · simp [hx]
    · have hne : ¬a = x := fun e => hx e.symm
      simp [hx, hne]
  | cons head rest ih =>
    obtain ⟨k, w⟩ := head
    have hk : k ≠ a := hfree (k, w) (by simp)
    by_cases hlt : a < k
    · simp only [Memory.insert, if_pos hlt, Memory.read]
      by_cases hx : x = a
      · simp [hx]
      · have hne : ¬a = x := fun e => hx e.symm
        simp [hx, hne]
    · simp only [Memory.insert, if_neg hlt, Memory.read, ih fun c hc => hfree c (by simp [hc])]
      by_cases hkx : k = x
      · subst hkx
        simp [hk]
      · simp [hkx]

/-- A read after a write: the written byte at its address, every other byte as before (R36, R45). It holds of
every memory list, canonical or not. -/
theorem Memory.read_write (m : Memory) (a x : Nat) (v : Byte) :
    Memory.read (Memory.write m a v) x = if x = a then v else Memory.read m x := by
  unfold Memory.write
  by_cases hv : v = Config.unwritten
  · rw [if_pos hv, Memory.read_erase, hv]
  · rw [if_neg hv, Memory.read_insert _ a x v (Memory.erase_free m a), Memory.read_erase]
    by_cases hx : x = a
    · simp [hx]
    · simp [hx]

theorem Memory.wfFrom_mono (m : Memory) {lo lo' : Nat} (hle : lo' ≤ lo) (h : Memory.wfFrom lo m = true) :
    Memory.wfFrom lo' m = true := by
  cases m with
  | nil => rfl
  | cons head rest =>
    obtain ⟨k, v⟩ := head
    simp only [Memory.wfFrom, Bool.and_eq_true, decide_eq_true_eq] at h ⊢
    exact ⟨⟨⟨by omega, h.1.1.2⟩, h.1.2⟩, h.2⟩

theorem Memory.wfFrom_erase (m : Memory) (a lo : Nat) (h : Memory.wfFrom lo m = true) :
    Memory.wfFrom lo (Memory.erase m a) = true := by
  induction m generalizing lo with
  | nil => rfl
  | cons head rest ih =>
    obtain ⟨k, v⟩ := head
    simp only [Memory.wfFrom, Bool.and_eq_true, decide_eq_true_eq] at h
    by_cases hk : k = a
    · rw [Memory.erase, if_pos hk]
      exact Memory.wfFrom_mono _ (by omega) (ih (k + 1) h.2)
    · rw [Memory.erase, if_neg hk]
      simp only [Memory.wfFrom, Bool.and_eq_true, decide_eq_true_eq]
      exact ⟨h.1, ih (k + 1) h.2⟩

theorem Memory.wfFrom_insert_erase (m : Memory) (a lo : Nat) (v : Byte) (hv : v ≠ Config.unwritten) (ha : a < Config.memSize)
    (hlo : lo ≤ a) (h : Memory.wfFrom lo m = true) : Memory.wfFrom lo (Memory.insert (Memory.erase m a) a v) = true := by
  induction m generalizing lo with
  | nil => simp [Memory.erase, Memory.insert, Memory.wfFrom, hlo, ha, hv]
  | cons head rest ih =>
    obtain ⟨k, w⟩ := head
    have hwf := h
    simp only [Memory.wfFrom, Bool.and_eq_true, decide_eq_true_eq] at h
    by_cases hk : k = a
    · rw [Memory.erase, if_pos hk]
      have hrest : Memory.wfFrom (a + 1) (Memory.erase rest a) = true := by
        rw [← hk]
        exact Memory.wfFrom_erase rest _ _ h.2
      cases hr : Memory.erase rest a with
      | nil => simp [Memory.insert, Memory.wfFrom, hlo, ha, hv]
      | cons head' rest' =>
        obtain ⟨k', w'⟩ := head'
        rw [hr] at hrest
        have hlt : a < k' := by
          simp only [Memory.wfFrom, Bool.and_eq_true, decide_eq_true_eq] at hrest
          omega
        rw [Memory.insert, if_pos hlt]
        rw [Memory.wfFrom, hrest]
        simp [hlo, ha, hv]
    · rw [Memory.erase, if_neg hk]
      by_cases hlt : a < k
      · rw [Memory.insert, if_pos hlt, Memory.wfFrom]
        have hrest : Memory.wfFrom (a + 1) ((k, w) :: Memory.erase rest a) = true := by
          simp only [Memory.wfFrom, Bool.and_eq_true, decide_eq_true_eq]
          exact ⟨⟨⟨by omega, h.1.1.2⟩, h.1.2⟩, Memory.wfFrom_erase rest _ _ h.2⟩
        rw [hrest]
        simp [hlo, ha, hv]
      · rw [Memory.insert, if_neg hlt]
        simp only [Memory.wfFrom, Bool.and_eq_true, decide_eq_true_eq]
        exact ⟨h.1, ih (k + 1) (by omega) h.2⟩

/-- A byte write keeps the canonical form. -/
theorem Memory.wf_write (m : Memory) (a : Nat) (v : Byte) (ha : a < Config.memSize) (h : Memory.wf m = true) :
    Memory.wf (Memory.write m a v) = true := by
  unfold Memory.write
  split
  · exact Memory.wfFrom_erase m a 0 h
  · exact Memory.wfFrom_insert_erase m a 0 v ‹_› ha (Nat.zero_le a) h

/-- Copying bytes that fit below the top of memory keeps the canonical form. -/
theorem Memory.wf_writeBytes (xs : List Byte) (m : Memory) (a : Nat) (ha : a + xs.length ≤ Config.memSize)
    (h : Memory.wf m = true) : Memory.wf (Memory.writeBytes m a xs) = true := by
  induction xs generalizing m a with
  | nil => exact h
  | cons x xs ih =>
    simp only [List.length_cons] at ha
    exact ih _ (a + 1) (by omega) (Memory.wf_write m a x (by omega) h)

/-- Reads after a copy: the copied byte inside the range, the old byte outside it (R106). -/
theorem Memory.read_writeBytes (xs : List Byte) (m : Memory) (a x : Nat) :
    Memory.read (Memory.writeBytes m a xs) x =
      if a ≤ x ∧ x < a + xs.length then xs.getD (x - a) Config.unwritten else Memory.read m x := by
  induction xs generalizing m a with
  | nil =>
    have : ¬(a ≤ x ∧ x < a + ([] : List Byte).length) := by
      simp only [List.length_nil]
      omega
    rw [if_neg this]
    rfl
  | cons y ys ih =>
    rw [Memory.writeBytes, ih, Memory.read_write]
    by_cases hxa : x = a
    · subst hxa
      simp
    · rw [if_neg hxa]
      by_cases hin : a + 1 ≤ x ∧ x < a + 1 + ys.length
      · rw [if_pos hin, if_pos (by simp only [List.length_cons]; omega)]
        have : x - a = (x - (a + 1)) + 1 := by omega
        rw [this, List.getD_cons_succ]
      · rw [if_neg hin, if_neg (by simp only [List.length_cons]; omega)]

/-- The state's byte read after its byte write. -/
theorem State.readByte_writeByte (s : State) (a x : Word) (v : Byte) :
    (s.writeByte a v).readByte x = if x = a then v else s.readByte x := by
  unfold State.readByte State.writeByte
  rw [Memory.read_write]
  by_cases h : x = a
  · simp [h]
  · rw [if_neg h, if_neg fun e => h (BitVec.eq_of_toNat_eq e)]

/-- A pair in numbers (R16). -/
theorem State.getPair_toNat (s : State) (p : Pair) :
    (s.getPair p).toNat = (s.getReg (hiReg p)).toNat * 256 + (s.getReg (loReg p)).toNat :=
  joinBytes_toNat _ _

/-- States with the same registers have the same pairs (R16). -/
theorem State.getPair_congr {s t : State} (h : ∀ q, s.getReg q = t.getReg q) (p : Pair) : s.getPair p = t.getPair p := by
  simp only [State.getPair, h]

/-- A byte write keeps the canonical form of the state's memory: every address is below `MEM_SIZE` (R47). -/
theorem State.wf_writeByte (s : State) (a : Word) (v : Byte) (h : Memory.wf s.mem = true) :
    Memory.wf (s.writeByte a v).mem = true :=
  Memory.wf_write s.mem a.toNat v a.isLt h

theorem State.wf_storeBytes (xs : List Byte) (s : State) (a : Word) (h : Memory.wf s.mem = true) :
    Memory.wf (s.storeBytes a xs).mem = true := by
  induction xs generalizing s a with
  | nil => exact h
  | cons x xs ih => exact ih _ _ (State.wf_writeByte s a x h)

/-- Storing bytes leaves every field but the memory (so `withFetchWord` places a program and nothing else). -/
theorem State.storeBytes_frame (xs : List Byte) (s : State) (a : Word) :
    (s.storeBytes a xs) = { s with mem := (s.storeBytes a xs).mem } := by
  induction xs generalizing s a with
  | nil => rfl
  | cons x xs ih =>
    rw [State.storeBytes, ih]
    rfl

/-- The memory of the reset state is in its canonical form. -/
theorem State.construct_wf (sp : Word) : Memory.wf (State.construct sp).mem = true := rfl

end Sys2Proof.Machine
end

