-- ==== Sys2Proof/Laws/Exec.lean ====
section
/-! SUPPORT. Everything an instruction and a step can do, said once: exec is the shared operation of the instruction's form, and each shared operation has its lemma. -/

namespace Sys2Proof.Machine

/-- The shared operation of each form. A form with no opcode changes nothing; no instruction has such a form. -/
def Form.run : Form → State → State
  | .add r, s => addA r s
  | .sub r, s => subA r s
  | .inc8 r, s => incReg r s
  | .dec8 r, s => decReg r s
  | .inc16 p, s => incPair p s
  | .dec16 p, s => decPair p s
  | .ld8 (.reg r) (.reg r'), s => loadReg r r' s
  | .ld8 (.reg r) .imm8, s => loadImm r s
  | .ld8 (.reg r) (.memAt p), s => loadMem r p s
  | .ld8 (.memAt p) (.reg r), s => storeReg p r s
  | .ld8 (.memAt p) .imm8, s => storeImm p s
  | .ld16 (.pair p) .imm16, s => loadPairImm p s
  | .ld16 .sp .imm16, s => loadSpImm s
  | .ld16 .sp (.pair p), s => loadSpPair p s
  | .jp cc, s => jumpAbs cc s
  | .jr cc, s => jumpRel cc s
  | .ld8 (.memAt _) (.memAt _), s | .ld16 (.pair _) (.pair _), s => s

/-- Every instruction answers the next state its form's shared operation gives. -/
theorem exec_eq_run (i : Instr) (s : State) : exec i s = .next (Form.run i.form s) := by
  cases i <;> rfl

/-- The form of every instruction is admitted, so `Form.run` is never used off the table. -/
theorem Instr.form_admitted (i : Instr) : i.form.admitted = true := by
  cases i <;> rfl

/-- A step either raises the decode error on an unknown opcode or runs the decoded instruction's form. -/
theorem step_cases (s : State) :
    (decodeOpcode s.fetchOpcode = none ∧ step s = .fault (.decodeError s.fetchOpcode s.pc)) ∨
    (∃ i, decodeOpcode s.fetchOpcode = some i ∧ step s = .next (Form.run i.form s)) := by
  unfold step
  cases h : decodeOpcode s.fetchOpcode with
  | none => exact .inl ⟨rfl, rfl⟩
  | some i => exact .inr ⟨i, rfl, exec_eq_run i s⟩

/-- What a completed step did. -/
theorem step_next {s t : State} (h : step s = .next t) :
    ∃ i, decodeOpcode s.fetchOpcode = some i ∧ t = Form.run i.form s := by
  rcases step_cases s with ⟨_, hs⟩ | ⟨i, hi, hs⟩
  · rw [hs] at h
    exact absurd h (by simp)
  · rw [hs] at h
    exact ⟨i, hi, by simpa using h.symm⟩

/-! ### One lemma per shared operation: every field it leaves behind -/

theorem addA_spec (r : Reg) (s : State) :
    (∀ q, (addA r s).getReg q = if q = .a then add8 s.a (s.getReg r) else s.getReg q) ∧
    (addA r s).flags = addFlags s.a (s.getReg r) ∧ (addA r s).sp = s.sp ∧ (addA r s).pc = addrAdd s.pc 1 ∧
    (addA r s).mem = s.mem :=
  ⟨fun q => by cases q <;> rfl, rfl, rfl, rfl, rfl⟩

theorem subA_spec (r : Reg) (s : State) :
    (∀ q, (subA r s).getReg q = if q = .a then sub8 s.a (s.getReg r) else s.getReg q) ∧
    (subA r s).flags = subFlags s.a (s.getReg r) ∧ (subA r s).sp = s.sp ∧ (subA r s).pc = addrAdd s.pc 1 ∧
    (subA r s).mem = s.mem :=
  ⟨fun q => by cases q <;> rfl, rfl, rfl, rfl, rfl⟩

theorem incReg_spec (r : Reg) (s : State) :
    (∀ q, (incReg r s).getReg q = if q = r then add8 (s.getReg r) 1 else s.getReg q) ∧
    (incReg r s).flags = incFlags s.flags (s.getReg r) ∧ (incReg r s).sp = s.sp ∧
    (incReg r s).pc = addrAdd s.pc 1 ∧ (incReg r s).mem = s.mem :=
  ⟨fun q => by simp [incReg, State.setReg_getReg], by simp [incReg], by simp [incReg], by simp [incReg], by simp [incReg]⟩

theorem decReg_spec (r : Reg) (s : State) :
    (∀ q, (decReg r s).getReg q = if q = r then sub8 (s.getReg r) 1 else s.getReg q) ∧
    (decReg r s).flags = decFlags s.flags (s.getReg r) ∧ (decReg r s).sp = s.sp ∧
    (decReg r s).pc = addrAdd s.pc 1 ∧ (decReg r s).mem = s.mem :=
  ⟨fun q => by simp [decReg, State.setReg_getReg], by simp [decReg], by simp [decReg], by simp [decReg], by simp [decReg]⟩

theorem incPair_spec (p : Pair) (s : State) :
    (∀ q, (incPair p s).getReg q = (s.setPair p (addrAdd (s.getPair p) 1)).getReg q) ∧
    (incPair p s).flags = s.flags ∧ (incPair p s).sp = s.sp ∧ (incPair p s).pc = addrAdd s.pc 1 ∧
    (incPair p s).mem = s.mem :=
  ⟨fun q => by simp [incPair], by simp [incPair, inc16Flags], by simp [incPair], by simp [incPair], by simp [incPair]⟩

theorem decPair_spec (p : Pair) (s : State) :
    (∀ q, (decPair p s).getReg q = (s.setPair p (wordDec (s.getPair p))).getReg q) ∧
    (decPair p s).flags = s.flags ∧ (decPair p s).sp = s.sp ∧ (decPair p s).pc = addrAdd s.pc 1 ∧
    (decPair p s).mem = s.mem :=
  ⟨fun q => by simp [decPair], by simp [decPair, inc16Flags], by simp [decPair], by simp [decPair], by simp [decPair]⟩

theorem loadReg_spec (r r' : Reg) (s : State) :
    (∀ q, (loadReg r r' s).getReg q = if q = r then s.getReg r' else s.getReg q) ∧
    (loadReg r r' s).flags = s.flags ∧ (loadReg r r' s).sp = s.sp ∧ (loadReg r r' s).pc = addrAdd s.pc 1 ∧
    (loadReg r r' s).mem = s.mem :=
  ⟨fun q => by simp [loadReg, State.setReg_getReg], by simp [loadReg], by simp [loadReg], by simp [loadReg], by simp [loadReg]⟩

theorem loadImm_spec (r : Reg) (s : State) :
    (∀ q, (loadImm r s).getReg q = if q = r then s.fetchN8 else s.getReg q) ∧
    (loadImm r s).flags = s.flags ∧ (loadImm r s).sp = s.sp ∧ (loadImm r s).pc = addrAdd s.pc 2 ∧
    (loadImm r s).mem = s.mem :=
  ⟨fun q => by simp [loadImm, State.setReg_getReg], by simp [loadImm], by simp [loadImm], by simp [loadImm], by simp [loadImm]⟩

theorem loadMem_spec (r : Reg) (p : Pair) (s : State) :
    (∀ q, (loadMem r p s).getReg q = if q = r then s.readByte (s.getPair p) else s.getReg q) ∧
    (loadMem r p s).flags = s.flags ∧ (loadMem r p s).sp = s.sp ∧ (loadMem r p s).pc = addrAdd s.pc 1 ∧
    (loadMem r p s).mem = s.mem :=
  ⟨fun q => by simp [loadMem, State.setReg_getReg], by simp [loadMem], by simp [loadMem], by simp [loadMem], by simp [loadMem]⟩

theorem storeReg_spec (p : Pair) (r : Reg) (s : State) :
    (∀ q, (storeReg p r s).getReg q = s.getReg q) ∧ (storeReg p r s).flags = s.flags ∧
    (storeReg p r s).sp = s.sp ∧ (storeReg p r s).pc = addrAdd s.pc 1 ∧
    (storeReg p r s).mem = Memory.write s.mem (s.getPair p).toNat (s.getReg r) :=
  ⟨fun q => by simp [storeReg], rfl, rfl, rfl, rfl⟩

theorem storeImm_spec (p : Pair) (s : State) :
    (∀ q, (storeImm p s).getReg q = s.getReg q) ∧ (storeImm p s).flags = s.flags ∧
    (storeImm p s).sp = s.sp ∧ (storeImm p s).pc = addrAdd s.pc 2 ∧
    (storeImm p s).mem = Memory.write s.mem (s.getPair p).toNat s.fetchN8 :=
  ⟨fun q => by simp [storeImm], rfl, rfl, rfl, rfl⟩

theorem loadPairImm_spec (p : Pair) (s : State) :
    (∀ q, (loadPairImm p s).getReg q = (s.setPair p s.fetchN16).getReg q) ∧
    (loadPairImm p s).flags = s.flags ∧ (loadPairImm p s).sp = s.sp ∧ (loadPairImm p s).pc = addrAdd s.pc 3 ∧
    (loadPairImm p s).mem = s.mem :=
  ⟨fun q => by simp [loadPairImm], by simp [loadPairImm], by simp [loadPairImm], by simp [loadPairImm], by simp [loadPairImm]⟩

theorem loadSpImm_spec (s : State) :
    (∀ q, (loadSpImm s).getReg q = s.getReg q) ∧ (loadSpImm s).flags = s.flags ∧ (loadSpImm s).sp = s.fetchN16 ∧
    (loadSpImm s).pc = addrAdd s.pc 3 ∧ (loadSpImm s).mem = s.mem :=
  ⟨fun q => by simp [loadSpImm], rfl, rfl, rfl, rfl⟩

theorem loadSpPair_spec (p : Pair) (s : State) :
    (∀ q, (loadSpPair p s).getReg q = s.getReg q) ∧ (loadSpPair p s).flags = s.flags ∧
    (loadSpPair p s).sp = s.getPair p ∧ (loadSpPair p s).pc = addrAdd s.pc 1 ∧ (loadSpPair p s).mem = s.mem :=
  ⟨fun q => by simp [loadSpPair], rfl, rfl, rfl, rfl⟩

theorem jumpAbs_spec (cc : Option Cond) (s : State) :
    (∀ q, (jumpAbs cc s).getReg q = s.getReg q) ∧ (jumpAbs cc s).flags = s.flags ∧ (jumpAbs cc s).sp = s.sp ∧
    (jumpAbs cc s).pc = (if jumpTaken s.flags cc then s.fetchN16 else addrAdd s.pc 3) ∧ (jumpAbs cc s).mem = s.mem := by
  unfold jumpAbs
  split <;> simp

theorem jumpRel_spec (cc : Option Cond) (s : State) :
    (∀ q, (jumpRel cc s).getReg q = s.getReg q) ∧ (jumpRel cc s).flags = s.flags ∧ (jumpRel cc s).sp = s.sp ∧
    (jumpRel cc s).pc = (if jumpTaken s.flags cc then s.relTarget else addrAdd s.pc 2) ∧ (jumpRel cc s).mem = s.mem := by
  unfold jumpRel
  split <;> simp

end Sys2Proof.Machine
end

