-- ==== Sys2Proof/Laws/PerInstr.lean ====
section
/-! SUPPORT. The statements made per instruction: its opcode byte decodes back to it, and it is well formed with an operand of its format's width. -/

namespace Sys2Proof.Laws.Encoding

/-- About the instruction as written: its opcode byte is the table's, its form is admitted, and its length is that
of its format (R52, R58). -/
def Statement (i : Instr) : Prop :=
  decodeOpcode (encodeOpcode i) = some i ∧ i.form.admitted = true ∧ decodeFields (encodeOpcode i) = some i.form ∧
    1 ≤ i.length ∧ i.length ≤ 3

/-- The opcode byte of every instruction is the table's. -/
theorem opcode_round_trip (i : Instr) : decodeOpcode (encodeOpcode i) = some i := by
  cases i <;> rfl

/-- The fields of every opcode byte give the instruction's form. -/
theorem fields_round_trip (i : Instr) : decodeFields (encodeOpcode i) = some i.form := by
  cases i <;> rfl

/-- The statement of every instruction. -/
theorem all (i : Instr) : Statement i :=
  ⟨opcode_round_trip i, by cases i <;> rfl, fields_round_trip i, by cases i <;> decide, by cases i <;> decide⟩

theorem ldBcN16 : Statement .ldBcN16 := all _
theorem ldMemBcA : Statement .ldMemBcA := all _
theorem incBc : Statement .incBc := all _
theorem incB : Statement .incB := all _
theorem decB : Statement .decB := all _
theorem ldBN8 : Statement .ldBN8 := all _
theorem ldAMemBc : Statement .ldAMemBc := all _
theorem decBc : Statement .decBc := all _
theorem incC : Statement .incC := all _
theorem decC : Statement .decC := all _
theorem ldCN8 : Statement .ldCN8 := all _
theorem ldDeN16 : Statement .ldDeN16 := all _
theorem ldMemDeA : Statement .ldMemDeA := all _
theorem incDe : Statement .incDe := all _
theorem incD : Statement .incD := all _
theorem decD : Statement .decD := all _
theorem ldDN8 : Statement .ldDN8 := all _
theorem jrE8 : Statement .jrE8 := all _
theorem ldAMemDe : Statement .ldAMemDe := all _
theorem decDe : Statement .decDe := all _
theorem incE : Statement .incE := all _
theorem decE : Statement .decE := all _
theorem ldEN8 : Statement .ldEN8 := all _
theorem jrNzE8 : Statement .jrNzE8 := all _
theorem ldHlN16 : Statement .ldHlN16 := all _
theorem incHl : Statement .incHl := all _
theorem incH : Statement .incH := all _
theorem decH : Statement .decH := all _
theorem ldHN8 : Statement .ldHN8 := all _
theorem jrZE8 : Statement .jrZE8 := all _
theorem decHl : Statement .decHl := all _
theorem incL : Statement .incL := all _
theorem decL : Statement .decL := all _
theorem ldLN8 : Statement .ldLN8 := all _
theorem jrNcE8 : Statement .jrNcE8 := all _
theorem ldSpN16 : Statement .ldSpN16 := all _
theorem ldMemHlN8 : Statement .ldMemHlN8 := all _
theorem jrCE8 : Statement .jrCE8 := all _
theorem incA : Statement .incA := all _
theorem decA : Statement .decA := all _
theorem ldAN8 : Statement .ldAN8 := all _
theorem ldBB : Statement .ldBB := all _
theorem ldBC : Statement .ldBC := all _
theorem ldBD : Statement .ldBD := all _
theorem ldBE : Statement .ldBE := all _
theorem ldBH : Statement .ldBH := all _
theorem ldBL : Statement .ldBL := all _
theorem ldBMemHl : Statement .ldBMemHl := all _
theorem ldBA : Statement .ldBA := all _
theorem ldCB : Statement .ldCB := all _
theorem ldCC : Statement .ldCC := all _
theorem ldCD : Statement .ldCD := all _
theorem ldCE : Statement .ldCE := all _
theorem ldCH : Statement .ldCH := all _
theorem ldCL : Statement .ldCL := all _
theorem ldCMemHl : Statement .ldCMemHl := all _
theorem ldCA : Statement .ldCA := all _
theorem ldDB : Statement .ldDB := all _
theorem ldDC : Statement .ldDC := all _
theorem ldDD : Statement .ldDD := all _
theorem ldDE : Statement .ldDE := all _
theorem ldDH : Statement .ldDH := all _
theorem ldDL : Statement .ldDL := all _
theorem ldDMemHl : Statement .ldDMemHl := all _
theorem ldDA : Statement .ldDA := all _
theorem ldEB : Statement .ldEB := all _
theorem ldEC : Statement .ldEC := all _
theorem ldED : Statement .ldED := all _
theorem ldEE : Statement .ldEE := all _
theorem ldEH : Statement .ldEH := all _
theorem ldEL : Statement .ldEL := all _
theorem ldEMemHl : Statement .ldEMemHl := all _
theorem ldEA : Statement .ldEA := all _
theorem ldHB : Statement .ldHB := all _
theorem ldHC : Statement .ldHC := all _
theorem ldHD : Statement .ldHD := all _
theorem ldHE : Statement .ldHE := all _
theorem ldHH : Statement .ldHH := all _
theorem ldHL : Statement .ldHL := all _
theorem ldHMemHl : Statement .ldHMemHl := all _
theorem ldHA : Statement .ldHA := all _
theorem ldLB : Statement .ldLB := all _
theorem ldLC : Statement .ldLC := all _
theorem ldLD : Statement .ldLD := all _
theorem ldLE : Statement .ldLE := all _
theorem ldLH : Statement .ldLH := all _
theorem ldLL : Statement .ldLL := all _
theorem ldLMemHl : Statement .ldLMemHl := all _
theorem ldLA : Statement .ldLA := all _
theorem ldMemHlB : Statement .ldMemHlB := all _
theorem ldMemHlC : Statement .ldMemHlC := all _
theorem ldMemHlD : Statement .ldMemHlD := all _
theorem ldMemHlE : Statement .ldMemHlE := all _
theorem ldMemHlH : Statement .ldMemHlH := all _
theorem ldMemHlL : Statement .ldMemHlL := all _
theorem ldMemHlA : Statement .ldMemHlA := all _
theorem ldAB : Statement .ldAB := all _
theorem ldAC : Statement .ldAC := all _
theorem ldAD : Statement .ldAD := all _
theorem ldAE : Statement .ldAE := all _
theorem ldAH : Statement .ldAH := all _
theorem ldAL : Statement .ldAL := all _
theorem ldAMemHl : Statement .ldAMemHl := all _
theorem ldAA : Statement .ldAA := all _
theorem addAB : Statement .addAB := all _
theorem addAC : Statement .addAC := all _
theorem addAD : Statement .addAD := all _
theorem addAE : Statement .addAE := all _
theorem addAH : Statement .addAH := all _
theorem addAL : Statement .addAL := all _
theorem addAA : Statement .addAA := all _
theorem subB : Statement .subB := all _
theorem subC : Statement .subC := all _
theorem subD : Statement .subD := all _
theorem subE : Statement .subE := all _
theorem subH : Statement .subH := all _
theorem subL : Statement .subL := all _
theorem subA : Statement .subA := all _
theorem jpNzN16 : Statement .jpNzN16 := all _
theorem jpN16 : Statement .jpN16 := all _
theorem jpZN16 : Statement .jpZN16 := all _
theorem jpNcN16 : Statement .jpNcN16 := all _
theorem jpCN16 : Statement .jpCN16 := all _
theorem ldSpHl : Statement .ldSpHl := all _

end Sys2Proof.Laws.Encoding
end

