-- ==== Sys2Proof/Laws/Decode.lean ====
section
/-! SUPPORT. What the decoder answers, by the opcode byte (spec/30_encoding.md R58 to R61). -/

namespace Sys2Proof

/-- The opcode byte of an instruction decodes to it. -/
@[simp] theorem decodeOpcode_encodeOpcode (i : Instr) : decodeOpcode (encodeOpcode i) = some i :=
  (Laws.Encoding.all i).1

/-- A byte decodes to an instruction exactly when it is that instruction's opcode byte. -/
theorem decodeOpcode_eq_some_iff (op : Byte) (i : Instr) : decodeOpcode op = some i ↔ op = encodeOpcode i := by
  constructor
  · intro h
    have hall : ∀ b : Byte, (decodeOpcode b).all (fun j => encodeOpcode j == b) = true := by decide +kernel
    have := hall op
    rw [h] at this
    simpa using (beq_iff_eq.mp this).symm
  · rintro rfl
    exact decodeOpcode_encodeOpcode i

/-- The decoder on a sequence that starts with a supported opcode byte. -/
theorem decode_cons_some {op : Byte} {bs : List Byte} {i : Instr} (h : decodeOpcode op = some i) :
    decode (op :: bs) = (takeOperand i.format bs).elim (.truncated i) (fun p => .ok i p.1 p.2) := by
  rw [decode]
  simp only [h]
  cases takeOperand i.format bs <;> rfl

/-- The decoder on a sequence that starts with an unknown opcode byte. -/
theorem decode_cons_none {op : Byte} {bs : List Byte} (h : decodeOpcode op = none) :
    decode (op :: bs) = .unknownOpcode op := by
  simp only [decode, h]

/-- The operand bytes of a fitting operand are taken off whole, with the rest left. -/
theorem takeOperand_encodeOperand {f : Format} {o : Operand} (h : f.fits o = true) (rest : List Byte) :
    takeOperand f (encodeOperand o ++ rest) = some (o, rest) := by
  cases f <;> cases o <;> first | exact absurd h Bool.false_ne_true | simp [encodeOperand, takeOperand]

/-- What `takeOperand` answers fits the format and is what stood there. -/
theorem takeOperand_some {f : Format} {bs rest : List Byte} {o : Operand} (h : takeOperand f bs = some (o, rest)) :
    f.fits o = true ∧ bs = encodeOperand o ++ rest := by
  cases f with
  | op =>
    simp only [takeOperand, Option.some.injEq, Prod.mk.injEq] at h
    obtain ⟨rfl, rfl⟩ := h
    exact ⟨rfl, rfl⟩
  | opN8 =>
    cases bs with
    | nil => simp [takeOperand] at h
    | cons b bs =>
      simp only [takeOperand, Option.some.injEq, Prod.mk.injEq] at h
      obtain ⟨rfl, rfl⟩ := h
      exact ⟨rfl, rfl⟩
  | opN16 =>
    match bs, h with
    | lo :: hi :: bs, h =>
      simp only [takeOperand, Option.some.injEq, Prod.mk.injEq] at h
      obtain ⟨rfl, rfl⟩ := h
      exact ⟨rfl, by simp [encodeOperand]⟩

end Sys2Proof
end

