-- ==== Sys2Proof/Tests/Slice0.lean ====
section
/-! SUPPORT. The model's own tests. Expected results come from spec/95_test_vectors.md (ids S1 to S9, V-...), from the worked examples of the rules, or from the spec's encodings written out bit by bit. -/

namespace Sys2Proof.Tests

open Sys2Proof.Machine

/-- The reset state with PC moved and bytes placed from PC on. -/
def at' (pc : Word) (bs : List Byte) : State := (State.reset.setPc pc).storeBytes pc bs

/-- The state after one step, or nothing if it did not complete. -/
def after (s : State) : Option State :=
  match step s with
  | .next t => some t
  | .fault _ => none
  | .refused _ => none

/-- The fault of one step, if any. -/
def faultOf (s : State) : Option Fault :=
  match step s with
  | .next _ => none
  | .fault f => some f
  | .refused _ => none

/-- One value of the state after a step. -/
def get {α : Type} (f : State → α) (s : State) : Option α := (after s).map f

/-- A, B and F, for the arithmetic vectors. -/
def abf (s : State) : Byte × Byte × Byte := (s.a, s.b, s.hostReg .f)

/-- Start of an arithmetic vector: one opcode at 0x0000, A, B and F given. -/
def ab (op a b f : Byte) : State :=
  (((at' 0 [op]).setReg .a a).setReg .b b).setFlags (Flags.ofByte f)

/-! ### WellFormed: each check refuses an ill-formed term -/

theorem test_wf_accepts : wellFormed .ldAN8 (.byte 0x2A) = true ∧ wellFormed .addAB .none = true ∧
    wellFormed .jpN16 (.word 0x0150) = true := by decide
theorem test_wf_missing_operand : wellFormed .ldAN8 .none = false := by decide
theorem test_wf_superfluous_operand : wellFormed .addAB (.byte 0x00) = false := by decide
theorem test_wf_operand_too_wide : wellFormed .jrE8 (.word 0x0000) = false := by decide
theorem test_wf_operand_too_narrow : wellFormed .jpN16 (.byte 0x00) = false := by decide
/-- The two examples of R66 that have no encoding, and the others R90 leaves out. -/
theorem test_form_not_admitted : Form.admitted (.ld8 (.memAt .bc) (.reg .b)) = false ∧
    Form.admitted (.ld16 (.pair .bc) (.pair .hl)) = false ∧ Form.admitted (.ld8 (.memAt .hl) (.memAt .hl)) = false ∧
    Form.admitted (.ld8 (.memAt .de) .imm8) = false ∧ Form.admitted (.ld8 (.reg .b) (.memAt .bc)) = false ∧
    Form.admitted (.ld16 .sp (.pair .bc)) = false := by decide

/-! ### Decoding: words written out bit by bit from the patterns of R58 -/

theorem test_decode_arithmetic : decodeOpcode 0b10000000#8 = some .addAB ∧ decodeOpcode 0b10010111#8 = some .subA ∧
    decodeOpcode 0b00101100#8 = some .incL ∧ decodeOpcode 0b00100101#8 = some .decH ∧
    decodeOpcode 0b00000011#8 = some .incBc ∧ decodeOpcode 0b00011011#8 = some .decDe := by decide
theorem test_decode_loads : decodeOpcode 0b01000111#8 = some .ldBA ∧ decodeOpcode 0b00111110#8 = some .ldAN8 ∧
    decodeOpcode 0b01100110#8 = some .ldHMemHl ∧ decodeOpcode 0b01110101#8 = some .ldMemHlL ∧
    decodeOpcode 0b00110110#8 = some .ldMemHlN8 ∧ decodeOpcode 0b00001010#8 = some .ldAMemBc ∧
    decodeOpcode 0b00010010#8 = some .ldMemDeA ∧ decodeOpcode 0b00010001#8 = some .ldDeN16 ∧
    decodeOpcode 0b00110001#8 = some .ldSpN16 ∧ decodeOpcode 0b11111001#8 = some .ldSpHl := by decide
theorem test_decode_jumps : decodeOpcode 0b11000011#8 = some .jpN16 ∧ decodeOpcode 0b11000010#8 = some .jpNzN16 ∧
    decodeOpcode 0b11011010#8 = some .jpCN16 ∧ decodeOpcode 0b00011000#8 = some .jrE8 ∧
    decodeOpcode 0b00110000#8 = some .jrNcE8 := by decide
/-- V-ERR: the unknown neighbours of accepted bytes. -/
theorem test_decode_unknown : decodeOpcode 0x00 = none ∧ decodeOpcode 0x76 = none ∧ decodeOpcode 0x86 = none ∧
    decodeOpcode 0x33 = none ∧ decodeOpcode 0x3B = none ∧ decodeOpcode 0xCB = none := by decide
/-- Bytes `21 34 12` are `LD HL,0x1234` (S6), low byte first. -/
theorem test_decode_bytes : decode [0x21, 0x34, 0x12, 0x77] = .ok .ldHlN16 (.word 0x1234) [0x77] := by decide
theorem test_decode_truncated : decode [0xC3, 0x50] = .truncated .jpN16 := by decide
theorem test_decode_rejects_by_name : decode [0xCB, 0x00] = .unknownOpcode 0xCB := by decide
theorem test_encode_jp : encode .jpN16 (.word 0x0150) = [0xC3, 0x50, 0x01] := by decide
/-- The byte at bits 7 to 0 of a table word is the opcode, operand bytes above it. -/
theorem test_table_word : decodeTableWord 8 0x3E = some .ldAN8 ∧ decodeTableWord 24 0x123421 = some .ldHlN16 ∧
    decodeTableWord 8 0x00 = none := by decide
theorem test_fetch_word : get (fun t => (t.a, t.pc)) (State.reset.withFetchWord 16 0x2A3E) = some (0x2A, 0x0002) := by
  decide
/-- R64's text form. -/
theorem test_text : Instr.text .ldAMemBc .none = "LD A,(BC)" ∧ Instr.text .jrNzE8 (.byte 0xFC) = "JR NZ,-4" ∧
    Instr.text .ldHlN16 (.word 0x1234) = "LD HL,4660" ∧ Instr.text .subB .none = "SUB B" := by decide

/-! ### Every constructor decodes from its byte, copied from the table's Opcode bytes column -/

theorem test_decode_rows_0 : [0x01, 0x02, 0x03, 0x04, 0x05, 0x06, 0x0A, 0x0B, 0x0C, 0x0D, 0x0E, 0x11, 0x12, 0x13, 0x14, 0x15, 0x16, 0x18, 0x1A, 0x1B, 0x1C, 0x1D, 0x1E, 0x20, 0x21, 0x23, 0x24, 0x25, 0x26, 0x28, 0x2B].map decodeOpcode =
    [some .ldBcN16, some .ldMemBcA, some .incBc, some .incB, some .decB, some .ldBN8, some .ldAMemBc, some .decBc, some .incC, some .decC, some .ldCN8, some .ldDeN16, some .ldMemDeA, some .incDe, some .incD, some .decD, some .ldDN8, some .jrE8, some .ldAMemDe, some .decDe, some .incE, some .decE, some .ldEN8, some .jrNzE8, some .ldHlN16, some .incHl, some .incH, some .decH, some .ldHN8, some .jrZE8, some .decHl] := by decide
theorem test_decode_rows_1 : [0x2C, 0x2D, 0x2E, 0x30, 0x31, 0x36, 0x38, 0x3C, 0x3D, 0x3E, 0x40, 0x41, 0x42, 0x43, 0x44, 0x45, 0x46, 0x47, 0x48, 0x49, 0x4A, 0x4B, 0x4C, 0x4D, 0x4E, 0x4F, 0x50, 0x51, 0x52, 0x53, 0x54].map decodeOpcode =
    [some .incL, some .decL, some .ldLN8, some .jrNcE8, some .ldSpN16, some .ldMemHlN8, some .jrCE8, some .incA, some .decA, some .ldAN8, some .ldBB, some .ldBC, some .ldBD, some .ldBE, some .ldBH, some .ldBL, some .ldBMemHl, some .ldBA, some .ldCB, some .ldCC, some .ldCD, some .ldCE, some .ldCH, some .ldCL, some .ldCMemHl, some .ldCA, some .ldDB, some .ldDC, some .ldDD, some .ldDE, some .ldDH] := by decide
theorem test_decode_rows_2 : [0x55, 0x56, 0x57, 0x58, 0x59, 0x5A, 0x5B, 0x5C, 0x5D, 0x5E, 0x5F, 0x60, 0x61, 0x62, 0x63, 0x64, 0x65, 0x66, 0x67, 0x68, 0x69, 0x6A, 0x6B, 0x6C, 0x6D, 0x6E, 0x6F, 0x70, 0x71, 0x72, 0x73].map decodeOpcode =
    [some .ldDL, some .ldDMemHl, some .ldDA, some .ldEB, some .ldEC, some .ldED, some .ldEE, some .ldEH, some .ldEL, some .ldEMemHl, some .ldEA, some .ldHB, some .ldHC, some .ldHD, some .ldHE, some .ldHH, some .ldHL, some .ldHMemHl, some .ldHA, some .ldLB, some .ldLC, some .ldLD, some .ldLE, some .ldLH, some .ldLL, some .ldLMemHl, some .ldLA, some .ldMemHlB, some .ldMemHlC, some .ldMemHlD, some .ldMemHlE] := by decide
theorem test_decode_rows_3 : [0x74, 0x75, 0x77, 0x78, 0x79, 0x7A, 0x7B, 0x7C, 0x7D, 0x7E, 0x7F, 0x80, 0x81, 0x82, 0x83, 0x84, 0x85, 0x87, 0x90, 0x91, 0x92, 0x93, 0x94, 0x95, 0x97, 0xC2, 0xC3, 0xCA, 0xD2, 0xDA, 0xF9].map decodeOpcode =
    [some .ldMemHlH, some .ldMemHlL, some .ldMemHlA, some .ldAB, some .ldAC, some .ldAD, some .ldAE, some .ldAH, some .ldAL, some .ldAMemHl, some .ldAA, some .addAB, some .addAC, some .addAD, some .addAE, some .addAH, some .addAL, some .addAA, some .subB, some .subC, some .subD, some .subE, some .subH, some .subL, some .subA, some .jpNzN16, some .jpN16, some .jpZN16, some .jpNcN16, some .jpCN16, some .ldSpHl] := by decide

/-! ### Arithmetic: V-ADD, V-SUB, V-INC, V-DEC, V-INC16, V-DEC16 -/

/-- S2. -/
theorem test_add_half_carry : get abf (ab 0x80 0x0F 0x01 0xF0) = some (0x10, 0x01, 0x20) := by decide
/-- S3. -/
theorem test_add_wraps : get abf (ab 0x80 0xFF 0x01 0xF0) = some (0x00, 0x01, 0xB0) := by decide
/-- V-ADD, `ADD A,A`: source is destination. -/
theorem test_add_self : get abf (ab 0x87 0x88 0x00 0xF0) = some (0x10, 0x00, 0x30) := by decide
/-- S4. -/
theorem test_sub_borrow : get abf (ab 0x90 0x00 0x01 0x00) = some (0xFF, 0x01, 0x70) := by decide
/-- V-SUB: H without C. -/
theorem test_sub_half_only : get abf (ab 0x90 0x10 0x01 0x00) = some (0x0F, 0x01, 0x60) := by decide
/-- S5. -/
theorem test_inc_keeps_carry : get abf (ab 0x04 0x00 0xFF 0x10) = some (0x00, 0x00, 0xB0) := by decide
theorem test_inc_no_carry : get abf (ab 0x04 0x00 0xFF 0x00) = some (0x00, 0x00, 0xA0) := by decide
theorem test_dec_borrow : get abf (ab 0x05 0x00 0x00 0x10) = some (0x00, 0xFF, 0x70) := by decide
theorem test_dec_to_zero : get abf (ab 0x05 0x00 0x01 0x10) = some (0x00, 0x00, 0xD0) := by decide
/-- V-INC16: the carry goes from C to B, flags kept. -/
theorem test_inc_pair : get (fun t => (t.b, t.c, t.hostReg .f)) (((at' 0 [0x03]).setPair .bc 0x00FF).setFlags (Flags.ofByte 0xA0)) =
    some (0x01, 0x00, 0xA0) := by decide
theorem test_dec_pair_wraps : get (fun t => (t.d, t.e, t.hostReg .f)) (((at' 0 [0x1B]).setPair .de 0x0000).setFlags (Flags.ofByte 0xA0)) =
    some (0xFF, 0xFF, 0xA0) := by decide

/-! ### Loads: V-LD, V-LD16 -/

theorem test_ld_b_a : get (fun t => (t.b, t.a, t.pc)) ((at' 0 [0x47]).setReg .a 0x3C) = some (0x3C, 0x3C, 0x0001) := by decide
theorem test_ld_a_n : get (fun t => (t.a, t.pc)) (at' 0 [0x3E, 0x2A]) = some (0x2A, 0x0002) := by decide
theorem test_ld_h_hl : get (fun t => (t.h, t.l, t.pc)) (((at' 0 [0x66]).setPair .hl 0xC000).writeByte 0xC000 0xC1) =
    some (0xC1, 0x00, 0x0001) := by decide
theorem test_st_hl_l : get (fun t => t.readByte 0xC0D0) ((at' 0 [0x75]).setPair .hl 0xC0D0) = some 0xD0 := by decide
theorem test_st_hl_n : get (fun t => (t.readByte 0xFFFF, t.pc)) ((at' 0 [0x36, 0xAB]).setPair .hl 0xFFFF) =
    some (0xAB, 0x0002) := by decide
/-- V-LD: a store over its own opcode completes as a store. -/
theorem test_st_own_opcode : get (fun t => (t.readByte 0x0000, t.pc)) ((at' 0 [0x77]).setReg .a 0x04) = some (0x04, 0x0001) := by
  decide
theorem test_ld_a_bc : get (fun t => t.a) (((at' 0 [0x0A]).setPair .bc 0x1234).writeByte 0x1234 0x01) = some 0x01 := by decide
theorem test_ld_a_de : get (fun t => t.a) (((at' 0 [0x1A]).setPair .de 0x0200).writeByte 0x0200 0xAB) = some 0xAB := by decide
theorem test_st_bc_a : get (fun t => t.readByte 0xC100) (((at' 0 [0x02]).setPair .bc 0xC100).setReg .a 0x42) = some 0x42 := by
  decide
theorem test_st_de_a : get (fun t => t.readByte 0xC200) (((at' 0 [0x12]).setPair .de 0xC200).setReg .a 0x43) = some 0x43 := by
  decide
theorem test_ld_bc_nn : get (fun t => (t.b, t.c, t.pc)) (at' 0 [0x01, 0xCD, 0xAB]) = some (0xAB, 0xCD, 0x0003) := by decide
theorem test_ld_sp_nn : get (fun t => (t.sp, t.pc)) (at' 0 [0x31, 0xFE, 0xFF]) = some (0xFFFE, 0x0003) := by decide
theorem test_ld_sp_hl : get (fun t => (t.sp, t.pc)) ((at' 0 [0xF9]).setPair .hl 0xD000) = some (0xD000, 0x0001) := by decide

/-! ### Jumps: S7, V-JP, V-JR, V-WRAP -/

/-- S7. -/
theorem test_jr_self : get (fun t => t.pc) (at' 0x0200 [0x18, 0xFE]) = some 0x0200 := by decide
theorem test_jr_most_negative : get (fun t => t.pc) (at' 0x1000 [0x18, 0x80]) = some 0x0F82 := by decide
theorem test_jr_wraps_down : get (fun t => t.pc) (at' 0x0004 [0x18, 0xF0]) = some 0xFFF6 := by decide
theorem test_jr_wraps_up : get (fun t => t.pc) (at' 0xFFF8 [0x18, 0x10]) = some 0x000A := by decide
/-- V-JR row F = 0x10, columns NC and C. -/
theorem test_jr_nc_c : get (fun t => t.pc) ((at' 0x0100 [0x30, 0x10]).setFlags (Flags.ofByte 0x10)) = some 0x0102 ∧
    get (fun t => t.pc) ((at' 0x0100 [0x38, 0x10]).setFlags (Flags.ofByte 0x10)) = some 0x0112 := by decide
/-- V-JR row F = 0x80, columns NZ and Z. -/
theorem test_jr_nz_z : get (fun t => t.pc) ((at' 0x0100 [0x20, 0x10]).setFlags (Flags.ofByte 0x80)) = some 0x0102 ∧
    get (fun t => t.pc) ((at' 0x0100 [0x28, 0x10]).setFlags (Flags.ofByte 0x80)) = some 0x0112 := by decide
/-- V-JP row F = 0x80. -/
theorem test_jp_cc : get (fun t => t.pc) ((at' 0x0100 [0xC2, 0x00, 0x80]).setFlags (Flags.ofByte 0x80)) = some 0x0103 ∧
    get (fun t => t.pc) ((at' 0x0100 [0xCA, 0x00, 0x80]).setFlags (Flags.ofByte 0x80)) = some 0x8000 ∧
    get (fun t => t.pc) ((at' 0x0100 [0xD2, 0x00, 0x80]).setFlags (Flags.ofByte 0x80)) = some 0x8000 ∧
    get (fun t => t.pc) ((at' 0x0100 [0xDA, 0x00, 0x80]).setFlags (Flags.ofByte 0x80)) = some 0x0103 := by decide
/-- V-WRAP: the operand bytes of a `JP` at 0xFFFE lie at 0xFFFF and 0x0000. -/
theorem test_jp_wraps : get (fun t => t.pc) (at' 0xFFFE [0xC3, 0x50, 0x01]) = some 0x0150 := by decide
theorem test_ld_hl_nn_wraps : get (fun t => (t.h, t.l, t.pc)) (at' 0xFFFF [0x21, 0x34, 0x12]) = some (0x12, 0x34, 0x0002) := by
  decide
theorem test_inc_at_top : get (fun t => (t.b, t.pc)) (at' 0xFFFF [0x04]) = some (0x01, 0x0000) := by decide

/-! ### Errors, reset and the host's operations: S1, S8, S9, V-ERR -/

/-- P5, S8: an empty core. -/
theorem test_empty_core : faultOf State.reset = some (.decodeError 0x00 0x0000) ∧
    hostStep State.reset = (State.reset, .error (.decodeError 0x00 0x0000)) := by decide
theorem test_unknown_76 : faultOf (at' 0x0150 [0x76]) = some (.decodeError 0x76 0x0150) := by decide
/-- V-ERR: an unknown byte is a legal operand. -/
theorem test_unknown_byte_as_operand : get (fun t => (t.a, t.pc)) ((at' 0 [0x3E, 0x00]).setReg .a 0x55) = some (0x00, 0x0002) := by
  decide
/-- V-ERR: `run_steps(10)` of `04 04 00`. -/
theorem test_run_steps : (runSteps 10 (at' 0 [0x04, 0x04, 0x00])).2 = .error (.decodeError 0x00 0x0002) ∧
    (runSteps 10 (at' 0 [0x04, 0x04, 0x00])).1.b = 0x02 := by decide
/-- V-ERR: 8 bytes at 0xFFF8 fit, 9 do not, none at 0xFFFF fit. -/
theorem test_load_program_bounds : (loadProgram [1, 2, 3, 4, 5, 6, 7, 8] 0xFFF8 State.reset).2 = .ok ∧
    loadProgram [1, 2, 3, 4, 5, 6, 7, 8, 9] 0xFFF8 State.reset = (State.reset, .loadOverflow) ∧
    loadProgram [] 0xFFFF State.reset = (State.reset, .ok) := by decide
/-- V-F: `from_byte(0x9A)` is (1,0,0,1), back to 0x90. -/
theorem test_flags_from_byte : Flags.ofByte 0x9A = { z := true, n := false, h := false, c := true } ∧
    (Flags.ofByte 0x9A).toByte = 0x90 := by decide
/-- S6: a pair is a view of its halves; the AF view drops bits 3 to 0 (R18). -/
theorem test_pair_views : ((State.reset.setReg .h 0xAA).setReg .l 0xBB).hostPair (.general .hl) = 0xAABB ∧
    (State.reset.setHostPair 0x12FF .af).hostPair .af = 0x12F0 := by decide
/-- V-WRAP: a word read at 0xFFFF. -/
theorem test_word_read_wraps : ((State.reset.writeByte 0xFFFF 0x34).writeByte 0x0000 0x12).readWord 0xFFFF = 0x1234 := by decide
/-- Writing zero over a byte removes its entry, so equal memories are equal lists. -/
theorem test_memory_canonical : ((State.reset.writeByte 0x0005 0x11).writeByte 0x0002 0x22).writeByte 0x0005 0x00 =
    State.reset.writeByte 0x0002 0x22 := by decide

/-! ### Witnesses: states and operands that meet the hypotheses of each statement that has any -/

theorem witness_DecodeInvertsEncode : wellFormed .ldAN8 (.byte 0xFF) = true ∧ wellFormed .jpCN16 (.word 0xFFFF) = true ∧
    wellFormed .subL .none = true := by decide
theorem witness_EncodeInvertsDecode : decode [0x36, 0xFF, 0x00] = .ok .ldMemHlN8 (.byte 0xFF) [0x00] := by decide
theorem witness_DecodeLooksAtOpcodeOnly : decodeOpcode 0xFF = none ∧ decodeOpcode 0xC3 = some .jpN16 ∧
    Instr.length .jpN16 ≤ [(0xFF : Byte), 0x00].length + 1 := by decide
theorem witness_StepRunsDecodedInstruction : decodeOpcode ((at' 0xFFFF [0x04]).readByte (at' 0xFFFF [0x04]).pc) = some .incB := by
  decide
theorem witness_StepRunsEncodedBytes : wellFormed .jpN16 (.word 0x0150) = true ∧
    ∀ k : Nat, k < (encode .jpN16 (.word 0x0150)).length →
      some ((at' 0xFFFE [0xC3, 0x50, 0x01]).readByte (addrAdd (at' 0xFFFE [0xC3, 0x50, 0x01]).pc k)) =
        (encode .jpN16 (.word 0x0150))[k]? := by decide
theorem witness_DecodeErrorExactlyOnUnknownOpcode : step State.reset = .fault (.decodeError 0x00 0x0000) := by rfl
theorem witness_DecodeErrorRepeatsForever : step (at' 0x0150 [0x76]) = .fault (.decodeError 0x76 0x0150) := by rfl
theorem witness_HostStepsRepeatDecodeError : step (at' 0xFFFF [0x76]) = .fault (.decodeError 0x76 0xFFFF) ∧
    decodeOpcode 0x3C = some .incA := ⟨by rfl, by decide⟩
theorem witness_ConditionsReadZAndCOnly : (Flags.ofByte 0x90).z = (Flags.ofByte 0xF0).z ∧
    (Flags.ofByte 0x90).c = (Flags.ofByte 0xF0).c ∧ Flags.ofByte 0x90 ≠ Flags.ofByte 0xF0 := by decide
theorem witness_JumpWritesOnlyPc : Form.isJump (Instr.form .jrCE8) = true ∧ Form.isJump (Instr.form .addAB) = false := by decide
theorem witness_JumpWritesOnlyPc_reads : (at' 0 [0xC3, 0x50, 0x01]).pc = ((at' 0 [0xC3, 0x50, 0x01]).setReg .a 9).pc ∧
    jumpTaken (at' 0 [0xC3, 0x50, 0x01]).flags none = jumpTaken ((at' 0 [0xC3, 0x50, 0x01]).setReg .a 9).flags none ∧
    (at' 0 [0xC3, 0x50, 0x01]).readByte 1 = ((at' 0 [0xC3, 0x50, 0x01]).setReg .a 9).readByte 1 ∧
    (at' 0 [0xC3, 0x50, 0x01]).readByte 2 = ((at' 0 [0xC3, 0x50, 0x01]).setReg .a 9).readByte 2 := by decide
theorem witness_SelfJumpHoldsForever : (at' 0xFFFF [0x18, 0xFE]).readByte (at' 0xFFFF [0x18, 0xFE]).pc = 0x18 ∧
    (at' 0xFFFF [0x18, 0xFE]).readByte (addrAdd (at' 0xFFFF [0x18, 0xFE]).pc 1) = 0xFE := by decide
theorem witness_ByteArithmeticFrame : Reg.b ≠ .a ∧ Reg.h ≠ .l := by decide
theorem witness_PairArithmeticAndLoadFrame : Instr.incHl = .ofIncPair .hl ∧ Instr.decBc = .ofDecPair .bc ∧
    Instr.ldDeN16 = .ofLdPairImm .de ∧ Reg.a ≠ hiReg .hl ∧ Reg.a ≠ loReg .hl := by decide
theorem witness_ByteLoadFrame : Instr.ldHN8 = .ofLdImm .h ∧ Instr.ldLMemHl = .ofLdMemHl .l ∧ Reg.b ≠ Reg.l ∧
    Reg.b ≠ Reg.a := by decide
theorem witness_StoreFrame : Instr.ldMemHlH = .ofStMemHl .h ∧ State.reset.getPair .hl = 0x0000 ∧
    State.reset.getPair .bc = 0x0000 ∧ State.reset.getPair .de = 0x0000 ∧ (0xFFFF : Word) ≠ 0x0000 := by decide
theorem witness_StackPointerLoadFrame : Instr.ldSpHl = .ldSpN16 ∨ Instr.ldSpHl = .ldSpHl := by decide
theorem witness_ByteWriteChangesOneByte : (0x0000 : Word) ≠ 0xFFFF := by decide
theorem witness_WordAccess : (0x0001 : Word) ≠ 0xFFFF ∧ (0x0001 : Word) ≠ addrAdd 0xFFFF 1 := by decide
/-- The store at 0x0000 with HL = 0x0001 leaves PC at HL, and the stored byte is an opcode. -/
theorem witness_StoreIsSeenByNextFetch :
    exec (.ofStMemHl .a) (((at' 0 [0x77]).setPair .hl 0x0001).setReg .a 0x04) =
      .next ((((at' 0 [0x77]).setPair .hl 0x0001).setReg .a 0x04).writeByte 0x0001 0x04 |>.advance 1) ∧
    ((((at' 0 [0x77]).setPair .hl 0x0001).setReg .a 0x04).writeByte 0x0001 0x04 |>.advance 1).pc =
      (((at' 0 [0x77]).setPair .hl 0x0001).setReg .a 0x04).getPair .hl ∧
    decodeOpcode 0x04 = some .incB := ⟨rfl, by decide, by decide +kernel⟩
/-- The other clause: the stored byte is an unknown opcode. -/
theorem witness_StoreIsSeenByNextFetch_unknown :
    exec (.ofStMemHl .a) (((at' 0 [0x77]).setPair .hl 0x0001).setReg .a 0x76) =
      .next ((((at' 0 [0x77]).setPair .hl 0x0001).setReg .a 0x76).writeByte 0x0001 0x76 |>.advance 1) ∧
    ((((at' 0 [0x77]).setPair .hl 0x0001).setReg .a 0x76).writeByte 0x0001 0x76 |>.advance 1).pc =
      (((at' 0 [0x77]).setPair .hl 0x0001).setReg .a 0x76).getPair .hl ∧
    decodeOpcode 0x76 = none := ⟨rfl, by decide, by decide +kernel⟩
/-- Both sides of the bound: the exact fit at the top is a copy, one byte more is an overflow. -/
theorem witness_LoadProgramCopiesOrRefuses : 65536 < (0xFFFF : Word).toNat + [(1 : Byte), 2].length ∧
    (0xFFFF : Word).toNat + [(1 : Byte)].length ≤ 65536 ∧ (0xFFFF : Word).toNat = (0xFFFF : Word).toNat + 0 ∧
    (0xFFFE : Word).toNat < (0xFFFF : Word).toNat := by decide
theorem witness_FailingLoadWritesNothing :
    loadProgram [0, 1, 2, 3, 4, 5, 6, 7, 8, 9] 0xFFF8 State.reset = (State.reset, .loadOverflow) ∧
    ([0, 1, 2, 3, 4, 5, 6, 7, 8, 9] : List Byte).length = 10 := by decide
theorem witness_OnlyByteArithmeticWritesFlags : Form.isArith8 (Instr.form .incHl) = false ∧
    Form.isArith8 (Instr.form .jpN16) = false := by decide
theorem witness_OnlySpLoadsWriteSp : Instr.incHl ≠ .ldSpN16 ∧ Instr.incHl ≠ .ldSpHl := by decide
theorem witness_OnlyStoresWriteMemory : Form.isStore (Instr.form .ldHMemHl) = false := by decide
theorem witness_RegistersChangeOnlyWhenNamed : Form.writesReg (Instr.form .incHl) .b = false ∧
    Form.writesReg (Instr.form .addAB) .b = false ∧ Form.writesReg (Instr.form .ldMemHlA) .h = false := by decide
/-- A canonical memory with two listed bytes, and a step that stores. -/
theorem witness_StepKeepsCanonicalMemory : ((at' 0 [0x77, 0x04]).setReg .a 0x05).Inv ∧
    step ((at' 0 [0x77, 0x04]).setReg .a 0x05) = .next (((at' 0 [0x77, 0x04]).setReg .a 0x05).writeByte 0x0000 0x05 |>.advance 1) :=
  ⟨by unfold State.Inv; decide, rfl⟩
theorem witness_HostMovesKeepCanonicalMemory : (at' 0xFFFF [0x18, 0xFE]).Inv := by unfold State.Inv; decide
theorem witness_FlagsNAndHNeverInfluenceARun :
    (State.reset.setFlags (Flags.ofByte 0x60)).forgetNH = State.reset.forgetNH ∧
    State.reset.setFlags (Flags.ofByte 0x60) ≠ State.reset := by decide
theorem witness_StackPointerNeverInfluencesARun : (State.reset.setSp 0x1234).forgetSp = State.reset.forgetSp ∧
    State.reset.setSp 0x1234 ≠ State.reset := by decide

end Sys2Proof.Tests
end

namespace Sys2Proof.Machine

/-! ### Hiding what no instruction reads (R24, R25): non-interference for any number of steps -/

/-- The state seen through a view of its flags and of its SP; registers, PC and memory stay in sight. -/
def State.hide (g : Flags → Flags) (k : Word → Word) (s : State) : State := { s with flags := g s.flags, sp := k s.sp }

/-- A view that hides only what no instruction reads: Z and C, the flags a condition reads (R91), stay as they are.
What is hidden once is hidden for good. -/
structure HidesUnread (g : Flags → Flags) (k : Word → Word) : Prop where
  z : ∀ f, (g f).z = f.z
  c : ∀ f, (g f).c = f.c
  flags_idem : ∀ f, g (g f) = g f
  sp_idem : ∀ v, k (k v) = k v

section Hide

variable {g : Flags → Flags} {k : Word → Word}

/-! What a read of a hidden state gives, and a write followed by hiding: one rule per operation. -/

@[simp] theorem State.hide_flags (s : State) : (s.hide g k).flags = g s.flags := rfl
@[simp] theorem State.hide_pc (s : State) : (s.hide g k).pc = s.pc := rfl
@[simp] theorem State.hide_getReg (s : State) (r : Reg) : (s.hide g k).getReg r = s.getReg r := by cases r <;> rfl
@[simp] theorem State.hide_getPair (s : State) (p : Pair) : (s.hide g k).getPair p = s.getPair p :=
  State.getPair_congr (State.hide_getReg s) p
@[simp] theorem State.hide_readByte (s : State) (x : Word) : (s.hide g k).readByte x = s.readByte x := rfl
@[simp] theorem State.hide_fetchOpcode (s : State) : (s.hide g k).fetchOpcode = s.fetchOpcode := rfl
@[simp] theorem State.hide_fetchN8 (s : State) : (s.hide g k).fetchN8 = s.fetchN8 := rfl
@[simp] theorem State.hide_fetchN16 (s : State) : (s.hide g k).fetchN16 = s.fetchN16 := rfl
@[simp] theorem State.hide_relTarget (s : State) : (s.hide g k).relTarget = s.relTarget := rfl

@[simp] theorem State.setReg_hide (s : State) (r : Reg) (v : Byte) :
    (s.setReg r v).hide g k = (s.hide g k).setReg r v := by cases r <;> rfl
@[simp] theorem State.setPair_hide (s : State) (p : Pair) (v : Word) :
    (s.setPair p v).hide g k = (s.hide g k).setPair p v := by simp [State.setPair]
@[simp] theorem State.setFlags_hide (s : State) (f : Flags) :
    (s.setFlags f).hide g k = (s.hide g k).setFlags (g f) := rfl
@[simp] theorem State.setSp_hide (s : State) (v : Word) : (s.setSp v).hide g k = (s.hide g k).setSp (k v) := rfl
@[simp] theorem State.setPc_hide (s : State) (v : Word) : (s.setPc v).hide g k = (s.hide g k).setPc v := rfl
@[simp] theorem State.advance_hide (s : State) (n : Nat) : (s.advance n).hide g k = (s.hide g k).advance n := rfl
@[simp] theorem State.writeByte_hide (s : State) (x : Word) (v : Byte) :
    (s.writeByte x v).hide g k = (s.hide g k).writeByte x v := rfl

theorem HidesUnread.hide_hide (hv : HidesUnread g k) (s : State) : (s.hide g k).hide g k = s.hide g k := by
  simp [State.hide, hv.flags_idem, hv.sp_idem]

theorem HidesUnread.jumpTaken_view (hv : HidesUnread g k) (f : Flags) (cc : Option Cond) :
    jumpTaken (g f) cc = jumpTaken f cc := by
  rcases cc with _ | (_ | _ | _ | _) <;> simp [jumpTaken, condHolds, hv.z, hv.c]

theorem HidesUnread.incFlags_view (hv : HidesUnread g k) (f : Flags) (v : Byte) : incFlags (g f) v = incFlags f v := by
  simp [incFlags, hv.c]

theorem HidesUnread.decFlags_view (hv : HidesUnread g k) (f : Flags) (v : Byte) : decFlags (g f) v = decFlags f v := by
  simp [decFlags, hv.c]

/-- No instruction reads what is hidden: hidden before its operation or not, the state after it looks the same. -/
theorem HidesUnread.run_hide (hv : HidesUnread g k) (f : Form) (s : State) :
    (Form.run f (s.hide g k)).hide g k = (Form.run f s).hide g k := by
  match f with
  | .add r => simp [Form.run, addA, hv.hide_hide]
  | .sub r => simp [Form.run, subA, hv.hide_hide]
  | .inc8 r => simp [Form.run, incReg, hv.hide_hide, hv.incFlags_view]
  | .dec8 r => simp [Form.run, decReg, hv.hide_hide, hv.decFlags_view]
  | .inc16 p => simp [Form.run, incPair, inc16Flags, hv.hide_hide, hv.flags_idem]
  | .dec16 p => simp [Form.run, decPair, inc16Flags, hv.hide_hide, hv.flags_idem]
  | .ld8 (.reg r) (.reg r') => simp [Form.run, loadReg, hv.hide_hide]
  | .ld8 (.reg r) .imm8 => simp [Form.run, loadImm, hv.hide_hide]
  | .ld8 (.reg r) (.memAt p) => simp [Form.run, loadMem, hv.hide_hide]
  | .ld8 (.memAt p) (.reg r) => simp [Form.run, storeReg, hv.hide_hide]
  | .ld8 (.memAt p) .imm8 => simp [Form.run, storeImm, hv.hide_hide]
  | .ld16 (.pair p) .imm16 => simp [Form.run, loadPairImm, hv.hide_hide]
  | .ld16 .sp .imm16 => simp [Form.run, loadSpImm, hv.hide_hide]
  | .ld16 .sp (.pair p) => simp [Form.run, loadSpPair, hv.hide_hide]
  | .jp cc => simp [Form.run, jumpAbs, apply_ite (State.hide g k), hv.hide_hide, hv.jumpTaken_view]
  | .jr cc => simp [Form.run, jumpRel, apply_ite (State.hide g k), hv.hide_hide, hv.jumpTaken_view]
  | .ld8 (.memAt _) (.memAt _) | .ld16 (.pair _) (.pair _) => exact hv.hide_hide s

theorem State.pc_eq_of_hide_eq {s s' : State} (h : s.hide g k = s'.hide g k) : s.pc = s'.pc := by
  simpa using congrArg State.pc h

theorem State.fetchOpcode_eq_of_hide_eq {s s' : State} (h : s.hide g k = s'.hide g k) :
    s.fetchOpcode = s'.fetchOpcode := by
  simpa using congrArg State.fetchOpcode h

/-- States that look the same do the same in one step: the same fault, or states that look the same. -/
theorem HidesUnread.step_sameThrough (hv : HidesUnread g k) {s s' : State} (h : s.hide g k = s'.hide g k) :
    sameThrough (State.hide g k) (step s) (step s') := by
  unfold step
  rw [State.fetchOpcode_eq_of_hide_eq h, State.pc_eq_of_hide_eq h]
  cases decodeOpcode s'.fetchOpcode with
  | none => exact rfl
  | some i =>
    simp only [exec_eq_run, sameThrough]
    calc (Form.run i.form s).hide g k = (Form.run i.form (s.hide g k)).hide g k := (hv.run_hide _ s).symm
      _ = (Form.run i.form (s'.hide g k)).hide g k := by rw [h]
      _ = (Form.run i.form s').hide g k := hv.run_hide _ s'

/-- States that look the same give the host the same result after any number of steps, and still look the same. -/
theorem HidesUnread.runSteps_same (hv : HidesUnread g k) (n : Nat) (s s' : State) (h : s.hide g k = s'.hide g k) :
    (runSteps n s).2 = (runSteps n s').2 ∧ (runSteps n s).1.hide g k = (runSteps n s').1.hide g k := by
  induction n generalizing s s' with
  | zero => exact ⟨congrArg StepResult.done (State.pc_eq_of_hide_eq h), h⟩
  | succ n ih =>
    have hstep := hv.step_sameThrough h
    unfold runSteps
    cases hs : step s <;> cases hs' : step s' <;> rw [hs, hs'] at hstep
    case next.next t t' => exact ih t t' hstep
    case fault.fault => exact ⟨congrArg StepResult.error hstep, h⟩
    case refused.refused => exact ⟨congrArg StepResult.refused hstep, h⟩
    all_goals exact hstep.elim

end Hide

/-- The flags with N and H put out of sight (R24). -/
def Flags.forgetNH (f : Flags) : Flags := { f with n := false, h := false }

theorem State.forgetNH_eq_hide : State.forgetNH = State.hide Flags.forgetNH id := rfl

theorem State.forgetSp_eq_hide : State.forgetSp = State.hide id (fun _ => 0) := rfl

/-- Settles O58: hiding N and H keeps Z and C, and only these two are read. -/
theorem flagsNAndHNeverInfluenceARun : Obligations.FlagsNAndHNeverInfluenceARun := by
  unfold Obligations.FlagsNAndHNeverInfluenceARun
  have hview : HidesUnread Flags.forgetNH id := ⟨fun _ => rfl, fun _ => rfl, fun _ => rfl, fun _ => rfl⟩
  rw [State.forgetNH_eq_hide]
  exact hview.runSteps_same

/-- Settles O59: hiding SP keeps all four flags, and no instruction reads SP. -/
theorem stackPointerNeverInfluencesARun : Obligations.StackPointerNeverInfluencesARun := by
  unfold Obligations.StackPointerNeverInfluencesARun
  have hview : HidesUnread id (fun _ => 0) := ⟨fun _ => rfl, fun _ => rfl, fun _ => rfl, fun _ => rfl⟩
  rw [State.forgetSp_eq_hide]
  exact hview.runSteps_same

/-! ### What an instruction leaves unchanged: flags, SP, registers (R14, R24, R25) -/

/-- Only the 8-bit arithmetic forms write flags (R24). -/
theorem Form.run_flags {f : Form} (h : f.isArith8 = false) (s : State) : (Form.run f s).flags = s.flags := by
  match f, h with
  | .inc16 p, _ => simp [Form.run, incPair_spec]
  | .dec16 p, _ => simp [Form.run, decPair_spec]
  | .ld8 (.reg r) (.reg r'), _ => simp [Form.run, loadReg_spec]
  | .ld8 (.reg r) .imm8, _ => simp [Form.run, loadImm_spec]
  | .ld8 (.reg r) (.memAt p), _ => simp [Form.run, loadMem_spec]
  | .ld8 (.memAt p) (.reg r), _ => simp [Form.run, storeReg_spec]
  | .ld8 (.memAt p) .imm8, _ => simp [Form.run, storeImm_spec]
  | .ld16 (.pair p) .imm16, _ => simp [Form.run, loadPairImm_spec]
  | .ld16 .sp .imm16, _ => simp [Form.run, loadSpImm_spec]
  | .ld16 .sp (.pair p), _ => simp [Form.run, loadSpPair_spec]
  | .jp cc, _ => simp [Form.run, jumpAbs_spec]
  | .jr cc, _ => simp [Form.run, jumpRel_spec]
  | .ld8 (.memAt _) (.memAt _), _ | .ld16 (.pair _) (.pair _), _ => rfl

/-- Only a load with target SP writes SP (R25). -/
theorem Form.run_sp {f : Form} (h : ∀ v, f ≠ .ld16 .sp v) (s : State) : (Form.run f s).sp = s.sp := by
  match f, h with
  | .add r, _ => simp [Form.run, addA_spec]
  | .sub r, _ => simp [Form.run, subA_spec]
  | .inc8 r, _ => simp [Form.run, incReg_spec]
  | .dec8 r, _ => simp [Form.run, decReg_spec]
  | .inc16 p, _ => simp [Form.run, incPair_spec]
  | .dec16 p, _ => simp [Form.run, decPair_spec]
  | .ld8 (.reg r) (.reg r'), _ => simp [Form.run, loadReg_spec]
  | .ld8 (.reg r) .imm8, _ => simp [Form.run, loadImm_spec]
  | .ld8 (.reg r) (.memAt p), _ => simp [Form.run, loadMem_spec]
  | .ld8 (.memAt p) (.reg r), _ => simp [Form.run, storeReg_spec]
  | .ld8 (.memAt p) .imm8, _ => simp [Form.run, storeImm_spec]
  | .ld16 (.pair p) .imm16, _ => simp [Form.run, loadPairImm_spec]
  | .ld16 .sp v, h => exact absurd rfl (h v)
  | .jp cc, _ => simp [Form.run, jumpAbs_spec]
  | .jr cc, _ => simp [Form.run, jumpRel_spec]
  | .ld8 (.memAt _) (.memAt _), _ | .ld16 (.pair _) (.pair _), _ => rfl

/-- The two instructions whose form loads SP (R88, R89). -/
theorem Instr.eq_spLoad_of_form {i : Instr} {v : LoadSource16} (h : i.form = .ld16 .sp v) :
    i = .ldSpN16 ∨ i = .ldSpHl := by
  cases i <;> cases h <;> simp

/-- A register that is no half of a pair keeps its value when the pair is written (R16). -/
theorem State.setPair_getReg_of_not_has {p : Pair} {q : Reg} (h : p.has q = false) (s : State) (v : Word) :
    (s.setPair p v).getReg q = s.getReg q := by
  have hq : q ≠ hiReg p ∧ q ≠ loReg p := by revert h; cases p <;> cases q <;> decide
  rw [State.setPair_getReg, if_neg hq.1, if_neg hq.2]

/-- Only the registers a form is listed as writing change (R14). -/
theorem Form.run_getReg {f : Form} {q : Reg} (h : f.writesReg q = false) (s : State) :
    (Form.run f s).getReg q = s.getReg q := by
  match f, h with
  | .add r, h => simp [Form.run, addA_spec, show q ≠ .a from ne_of_beq_false h]
  | .sub r, h => simp [Form.run, subA_spec, show q ≠ .a from ne_of_beq_false h]
  | .inc8 r, h => simp [Form.run, incReg_spec, show q ≠ r from ne_of_beq_false h]
  | .dec8 r, h => simp [Form.run, decReg_spec, show q ≠ r from ne_of_beq_false h]
  | .inc16 p, h => simp [Form.run, incPair_spec, State.setPair_getReg_of_not_has h]
  | .dec16 p, h => simp [Form.run, decPair_spec, State.setPair_getReg_of_not_has h]
  | .ld8 (.reg r) (.reg r'), h => simp [Form.run, loadReg_spec, show q ≠ r from ne_of_beq_false h]
  | .ld8 (.reg r) .imm8, h => simp [Form.run, loadImm_spec, show q ≠ r from ne_of_beq_false h]
  | .ld8 (.reg r) (.memAt p), h => simp [Form.run, loadMem_spec, show q ≠ r from ne_of_beq_false h]
  | .ld8 (.memAt p) (.reg r), _ => simp [Form.run, storeReg_spec]
  | .ld8 (.memAt p) .imm8, _ => simp [Form.run, storeImm_spec]
  | .ld16 (.pair p) .imm16, h => simp [Form.run, loadPairImm_spec, State.setPair_getReg_of_not_has h]
  | .ld16 .sp .imm16, _ => simp [Form.run, loadSpImm_spec]
  | .ld16 .sp (.pair p), _ => simp [Form.run, loadSpPair_spec]
  | .jp cc, _ => simp [Form.run, jumpAbs_spec]
  | .jr cc, _ => simp [Form.run, jumpRel_spec]
  | .ld8 (.memAt _) (.memAt _), _ | .ld16 (.pair _) (.pair _), _ => rfl

/-- Settles O51, by the frame of the forms that are no 8-bit arithmetic. -/
theorem onlyByteArithmeticWritesFlags : Obligations.OnlyByteArithmeticWritesFlags := by
  unfold Obligations.OnlyByteArithmeticWritesFlags
  intro i s h
  exact ⟨_, exec_eq_run i s, Form.run_flags h s⟩

/-- Settles O52, by the frame of the forms whose target is not SP. -/
theorem onlySpLoadsWriteSp : Obligations.OnlySpLoadsWriteSp := by
  unfold Obligations.OnlySpLoadsWriteSp
  intro i s hImm hHl
  have hform : ∀ v, i.form ≠ .ld16 .sp v := fun v h => (Instr.eq_spLoad_of_form h).elim hImm hHl
  exact ⟨_, exec_eq_run i s, Form.run_sp hform s⟩

/-- Settles O54, by the frame of the registers a form does not write. -/
theorem registersChangeOnlyWhenNamed : Obligations.RegistersChangeOnlyWhenNamed := by
  unfold Obligations.RegistersChangeOnlyWhenNamed
  intro i s q h
  exact ⟨_, exec_eq_run i s, Form.run_getReg h s⟩

/-! ### Pairs as views, and the packed byte of the flags (R16, R18, R20 to R22) -/

/-- A pair reads as what was written to it (R16). -/
@[simp] theorem State.setPair_getPair_same (s : State) (p : Pair) (v : Word) : (s.setPair p v).getPair p = v := by
  have hne : loReg p ≠ hiReg p := by cases p <;> decide
  rw [State.getPair, State.setPair_getReg, State.setPair_getReg, if_pos rfl, if_neg hne, if_pos rfl,
    joinBytes_hiByte_loByte]

/-- Settles O39: a pair is its two bytes joined, and a write to it is two register writes. -/
theorem pairsAreViewsOfTheirHalves : Obligations.PairsAreViewsOfTheirHalves := by
  unfold Obligations.PairsAreViewsOfTheirHalves
  refine ⟨fun s => ?_, fun s v => ?_, fun s v p => State.setPair_getPair_same s p v⟩
  · exact ⟨State.getPair_toNat s .bc, State.getPair_toNat s .de, State.getPair_toNat s .hl, joinBytes_toNat _ _⟩
  · rw [← hiByte_eq_extract, ← loByte_eq_extract]
    exact ⟨rfl, rfl, rfl⟩

/-- A fact about all flags is one about four Booleans, which is finite. -/
theorem Flags.forall_iff {p : Flags → Prop} : (∀ f, p f) ↔ ∀ z n h c, p ⟨z, n, h, c⟩ :=
  ⟨fun hp _ _ _ _ => hp _, fun hp f => hp f.z f.n f.h f.c⟩

/-- The four weights sum to less than 256, so packing the flags drops nothing (R20). -/
theorem Flags.toByte_toNat : ∀ f : Flags,
    f.toByte.toNat = flagBit f.z 0x80 + flagBit f.n 0x40 + flagBit f.h 0x20 + flagBit f.c 0x10 :=
  Flags.forall_iff.mpr (by decide)

/-- The packed byte is a multiple of 0x10: the flags, read as a number of four bits, stand above a zero nibble (R20). -/
theorem Flags.toByte_toNat_eq_mul : ∀ f : Flags,
    f.toByte.toNat = 16 * (flagBit f.z 8 + flagBit f.n 4 + flagBit f.h 2 + flagBit f.c 1) :=
  Flags.forall_iff.mpr (by decide)

/-- Bits 3 to 0 of the packed byte are zero (R20). -/
theorem Flags.toByte_and_lowNibble : ∀ f : Flags, f.toByte &&& 0x0F = 0 :=
  Flags.forall_iff.mpr (by decide)

/-- Settles O40: the packed byte is 16 times a number, which is below 16 because the byte is below 256. -/
theorem flagsPackIntoHighNibble : Obligations.FlagsPackIntoHighNibble := by
  unfold Obligations.FlagsPackIntoHighNibble
  intro s
  have hmul := Flags.toByte_toNat_eq_mul s.flags
  have hlt := s.flags.toByte.isLt
  exact ⟨Flags.toByte_toNat s.flags, Flags.toByte_and_lowNibble s.flags, _, by omega, hmul⟩

/-- Packing and reading back is the identity (R22). -/
@[simp] theorem Flags.ofByte_toByte : ∀ f : Flags, Flags.ofByte f.toByte = f :=
  Flags.forall_iff.mpr (by decide)

/-- Reading a byte and packing it clears bits 3 to 0 (R21, R22). -/
theorem Flags.toByte_ofByte (b : Byte) : (Flags.ofByte b).toByte = b &&& 0xF0 := by
  revert b
  decide

/-- Settles O41: the two round trips, and an AF write is a write of A and of the flags its low byte reads as. -/
theorem flagsRoundTrip : Obligations.FlagsRoundTrip := by
  unfold Obligations.FlagsRoundTrip
  refine ⟨Flags.ofByte_toByte, Flags.toByte_ofByte, fun _ => rfl, fun s v => ?_⟩
  rw [← hiByte_eq_extract, ← loByte_eq_extract]
  rfl

/-! ### Construction and reset (R34, R105) -/

/-- Settles O43: each field of the constructed state is the literal the statement names. -/
theorem constructionResetsEverything : Obligations.ConstructionResetsEverything := by
  unfold Obligations.ConstructionResetsEverything
  refine ⟨fun sp => ⟨fun r => ?_, rfl, rfl, rfl, rfl, fun _ => rfl⟩, rfl⟩
  cases r <;> rfl

/-- Settles O56: the memory of every constructed state is the empty list, which is canonical. -/
theorem resetMemoryIsCanonical : Obligations.ResetMemoryIsCanonical := by
  unfold Obligations.ResetMemoryIsCanonical
  exact ⟨State.construct_wf, State.construct_wf Config.spReset⟩

end Sys2Proof.Machine

namespace Sys2Proof.Machine

/-! ### What an instruction does to memory (R36, R42) -/

/-- States with the same memory read the same byte at every address (R35). -/
theorem State.readByte_congr {s t : State} (h : s.mem = t.mem) (x : Word) : s.readByte x = t.readByte x := by
  rw [State.readByte, State.readByte, h]

@[simp] theorem State.readByte_writeByte_same (s : State) (a : Word) (v : Byte) : (s.writeByte a v).readByte a = v := by
  rw [State.readByte_writeByte, if_pos rfl]

theorem State.readByte_writeByte_ne {a x : Word} (h : x ≠ a) (s : State) (v : Byte) :
    (s.writeByte a v).readByte x = s.readByte x := by
  rw [State.readByte_writeByte, if_neg h]

/-- A form that is no store leaves the memory as it is (R42). -/
theorem Form.run_mem {f : Form} (h : f.isStore = false) (s : State) : (Form.run f s).mem = s.mem := by
  match f, h with
  | .add r, _ => simp [Form.run, addA_spec]
  | .sub r, _ => simp [Form.run, subA_spec]
  | .inc8 r, _ => simp [Form.run, incReg_spec]
  | .dec8 r, _ => simp [Form.run, decReg_spec]
  | .inc16 p, _ => simp [Form.run, incPair_spec]
  | .dec16 p, _ => simp [Form.run, decPair_spec]
  | .ld8 (.reg r) (.reg r'), _ => simp [Form.run, loadReg_spec]
  | .ld8 (.reg r) .imm8, _ => simp [Form.run, loadImm_spec]
  | .ld8 (.reg r) (.memAt p), _ => simp [Form.run, loadMem_spec]
  | .ld16 (.pair p) .imm16, _ => simp [Form.run, loadPairImm_spec]
  | .ld16 .sp .imm16, _ => simp [Form.run, loadSpImm_spec]
  | .ld16 .sp (.pair p), _ => simp [Form.run, loadSpPair_spec]
  | .jp cc, _ => simp [Form.run, jumpAbs_spec]
  | .jr cc, _ => simp [Form.run, jumpRel_spec]
  | .ld16 (.pair _) (.pair _), _ => rfl

/-- A store writes at most the one byte at the address its pair holds. The memory-to-memory form, which no
instruction has, writes none. -/
theorem Form.run_store_mem (p : Pair) (v : LoadSource) (s : State) :
    (Form.run (.ld8 (.memAt p) v) s).mem = s.mem ∨
    ∃ x, (Form.run (.ld8 (.memAt p) v) s).mem = (s.writeByte (s.getPair p) x).mem := by
  cases v with
  | reg r => exact .inr ⟨s.getReg r, by simp [Form.run, storeReg_spec]⟩
  | imm8 => exact .inr ⟨s.fetchN8, by simp [Form.run, storeImm_spec]⟩
  | memAt q => exact .inl rfl

/-- The forms that store are the 8-bit loads whose target is in memory (R42). -/
theorem Form.isStore_iff {f : Form} : f.isStore = true ↔ ∃ p v, f = .ld8 (.memAt p) v := by
  constructor
  · intro h
    match f, h with
    | .ld8 (.memAt p) v, _ => exact ⟨p, v, rfl⟩
  · rintro ⟨p, v, rfl⟩
    rfl

/-- No form writes more than one byte, and none at an address out of range: the canonical form is kept (R47). -/
theorem Form.inv_run (f : Form) {s : State} (h : s.Inv) : (Form.run f s).Inv := by
  unfold State.Inv at h ⊢
  cases hf : f.isStore with
  | false => rwa [Form.run_mem hf]
  | true =>
    obtain ⟨p, v, rfl⟩ := Form.isStore_iff.mp hf
    obtain hmem | ⟨x, hmem⟩ := Form.run_store_mem p v s
    · rwa [hmem]
    · rw [hmem]
      exact State.wf_writeByte s _ x h

/-- Settles O55: a completed step ran a form, and every form keeps the invariant. -/
theorem stepKeepsCanonicalMemory : Obligations.StepKeepsCanonicalMemory := by
  unfold Obligations.StepKeepsCanonicalMemory
  intro s t hs hstep
  obtain ⟨i, _, rfl⟩ := step_next hstep
  exact Form.inv_run i.form hs

/-- Settles O53, by the frame of the forms that are no store. -/
theorem onlyStoresWriteMemory : Obligations.OnlyStoresWriteMemory := by
  unfold Obligations.OnlyStoresWriteMemory
  intro i s h
  exact ⟨_, exec_eq_run i s, State.readByte_congr (Form.run_mem h s)⟩

/-- A store leaves every byte but the one at the address its pair holds (R36). -/
theorem Form.run_store_readByte {p : Pair} {v : LoadSource} {s : State} {x : Word} (hx : x ≠ s.getPair p) :
    (Form.run (.ld8 (.memAt p) v) s).readByte x = s.readByte x := by
  obtain hmem | ⟨y, hmem⟩ := Form.run_store_mem p v s
  · exact State.readByte_congr hmem x
  · rw [State.readByte_congr hmem, State.readByte_writeByte_ne hx]

/-- The frame of a store: registers, flags, SP and every byte but one (R77, R81, R82, R85, R86). -/
theorem exec_store_frame {i : Instr} {p : Pair} {v : LoadSource} (hi : i.form = .ld8 (.memAt p) v) (s : State) :
    ∃ t, exec i s = .next t ∧ (∀ q, t.getReg q = s.getReg q) ∧ t.flags = s.flags ∧ t.sp = s.sp ∧
      (∀ a, s.getPair p = a → ∀ x, x ≠ a → t.readByte x = s.readByte x) := by
  refine ⟨_, exec_eq_run i s, ?_⟩
  rw [hi]
  refine ⟨fun q => Form.run_getReg rfl s, Form.run_flags rfl s, Form.run_sp (by simp) s, ?_⟩
  rintro _ rfl x hx
  exact Form.run_store_readByte hx

/-- The form of `LD (HL),r` (R81). -/
@[simp] theorem Instr.ofStMemHl_form (r : Reg) : (Instr.ofStMemHl r).form = .ld8 (.memAt .hl) (.reg r) := by
  cases r <;> rfl

/-- Settles O37: each of the ten instructions has a form with a target in memory. -/
theorem storeFrame : Obligations.StoreFrame := by
  unfold Obligations.StoreFrame
  refine ⟨fun i s hi => ?_, exec_store_frame rfl, exec_store_frame rfl⟩
  obtain rfl | ⟨r, rfl⟩ := hi
  · exact exec_store_frame rfl s
  · exact exec_store_frame (Instr.ofStMemHl_form r) s

/-! ### Byte and word access (R35 to R40) -/

/-- Settles O45: reads after a write at the same and at another address; the other fields are not written. -/
theorem byteWriteChangesOneByte : Obligations.ByteWriteChangesOneByte := by
  unfold Obligations.ByteWriteChangesOneByte
  refine ⟨fun s addr v => ⟨?_, fun x hx => ?_, fun r => ?_, rfl, rfl, rfl⟩, fun _ _ => rfl⟩
  · exact State.readByte_writeByte_same s addr v
  · exact State.readByte_writeByte_ne hx s v
  · exact State.writeByte_getReg s addr v r

/-- The second address of a word is never the first one, at 0xFFFF neither (R39). -/
theorem addrAdd_one_ne (a : Word) : addrAdd a 1 ≠ a := by
  intro h
  have hnat := congrArg BitVec.toNat h
  rw [addrAdd_toNat] at hnat
  omega

/-- A word read in numbers, low byte first (R37). -/
theorem State.readWord_toNat (s : State) (a : Word) :
    (s.readWord a).toNat = (s.readByte a).toNat + 256 * (s.readByte (addrAdd a 1)).toNat := by
  rw [State.readWord, joinBytes_toNat]
  omega

/-- Reads after a word write: its high byte, its low byte, or the byte from before (R38). -/
theorem State.readByte_writeWord (s : State) (a v x : Word) :
    (s.writeWord a v).readByte x =
      if x = addrAdd a 1 then hiByte v else if x = a then loByte v else s.readByte x := by
  rw [State.writeWord, State.readByte_writeByte, State.readByte_writeByte]

@[simp] theorem State.readByte_writeWord_lo (s : State) (a v : Word) : (s.writeWord a v).readByte a = loByte v := by
  rw [State.readByte_writeWord, if_neg (addrAdd_one_ne a).symm, if_pos rfl]

@[simp] theorem State.readByte_writeWord_hi (s : State) (a v : Word) :
    (s.writeWord a v).readByte (addrAdd a 1) = hiByte v := by
  rw [State.readByte_writeWord, if_pos rfl]

/-- A word reads as what was written there (R37, R38). -/
@[simp] theorem State.readWord_writeWord (s : State) (a v : Word) : (s.writeWord a v).readWord a = v := by
  rw [State.readWord, State.readByte_writeWord_hi, State.readByte_writeWord_lo, joinBytes_hiByte_loByte]

/-- Settles O46: the two addresses of a word differ, so neither byte of a word write hides the other. -/
theorem wordAccessIsLittleEndianAndWraps : Obligations.WordAccessIsLittleEndianAndWraps := by
  unfold Obligations.WordAccessIsLittleEndianAndWraps
  refine ⟨State.readWord_toNat, fun s addr v => ?_, by decide⟩
  rw [← loByte_eq_extract, ← hiByte_eq_extract]
  refine ⟨State.readByte_writeWord_lo s addr v, State.readByte_writeWord_hi s addr v, fun x hlo hhi => ?_,
    State.readWord_writeWord s addr v⟩
  rw [State.readByte_writeWord, if_neg hhi, if_neg hlo]

/-! ### Fetch is coherent with stores (R51, R135) -/

/-- A step runs the instruction its opcode byte decodes to (R99 to R101). -/
theorem step_of_decode_some {s : State} {i : Instr} (h : decodeOpcode s.fetchOpcode = some i) : step s = exec i s := by
  simp only [step, h]

/-- A step on an unknown opcode raises the decode error (R113). -/
theorem step_of_decode_none {s : State} (h : decodeOpcode s.fetchOpcode = none) :
    step s = .fault (.decodeError s.fetchOpcode s.pc) := by
  simp only [step, h, raiseDecodeError]

/-- After `LD (HL),r`, `LD (BC),A` or `LD (DE),A` the byte at the pair's old address is the register (R81, R85, R86). -/
@[simp] theorem storeReg_readByte_same (p : Pair) (r : Reg) (s : State) :
    (storeReg p r s).readByte (s.getPair p) = s.getReg r := by
  rw [storeReg, State.advance_readByte, State.readByte_writeByte_same]

/-- Settles O47: the opcode byte the next step fetches is the register just stored. -/
theorem storeIsSeenByNextFetch : Obligations.StoreIsSeenByNextFetch := by
  unfold Obligations.StoreIsSeenByNextFetch
  intro r s t hexec hpc
  have ht : t = storeReg .hl r s := by simpa [exec_eq_run, Form.run, eq_comm] using hexec
  have hop : t.fetchOpcode = s.getReg r := by rw [State.fetchOpcode, hpc, ht, storeReg_readByte_same]
  rw [← hop]
  exact ⟨fun _ => step_of_decode_some, step_of_decode_none⟩

end Sys2Proof.Machine

namespace Sys2Proof

open Machine

/-! ### The decoder and the encoder are inverse to each other (R52, R56 to R61) -/

/-- The form of an instruction is always admitted, so only the operand's width decides (R52, R66). -/
theorem wellFormed_iff (i : Instr) (o : Operand) : wellFormed i o = true ↔ i.format.fits o = true := by
  rw [wellFormed, Instr.form_admitted, Bool.true_and]

/-- A decoded sequence is the instruction's opcode byte and then what the operand is taken from (R52, R59). -/
theorem decode_eq_ok_iff {bs rest : List Byte} {i : Instr} {o : Operand} :
    decode bs = .ok i o rest ↔ ∃ tail, bs = encodeOpcode i :: tail ∧ takeOperand i.format tail = some (o, rest) := by
  constructor
  · intro h
    match bs with
    | [] => cases h
    | op :: tail =>
      cases hop : decodeOpcode op with
      | none => rw [decode_cons_none hop] at h; cases h
      | some j =>
        rw [decode_cons_some hop] at h
        cases htake : takeOperand j.format tail with
        | none => rw [htake] at h; cases h
        | some p =>
          rw [htake] at h
          cases h
          exact ⟨tail, by rw [(decodeOpcode_eq_some_iff op i).mp hop], htake⟩
  · rintro ⟨tail, rfl, htake⟩
    rw [decode_cons_some (decodeOpcode_encodeOpcode i), htake, Option.elim_some]

/-- Settles O2: the format of a well-formed instruction takes exactly the operand's bytes off. -/
theorem decodeInvertsEncode : Obligations.DecodeInvertsEncode := by
  unfold Obligations.DecodeInvertsEncode
  intro i o rest hwf
  have htake := takeOperand_encodeOperand ((wellFormed_iff i o).mp hwf) rest
  exact decode_eq_ok_iff.mpr ⟨encodeOperand o ++ rest, rfl, htake⟩

/-- Settles O3: the byte decoded is the instruction's opcode byte, and the operand is the bytes it was taken from. -/
theorem encodeInvertsDecode : Obligations.EncodeInvertsDecode := by
  unfold Obligations.EncodeInvertsDecode
  intro bs i o rest h
  obtain ⟨tail, rfl, htake⟩ := decode_eq_ok_iff.mp h
  obtain ⟨hfits, rfl⟩ := takeOperand_some htake
  exact ⟨(wellFormed_iff i o).mpr hfits, rfl⟩

/-- An operand can be taken off any bytes that are at least as many as the format has operand bytes (R52, R61). -/
theorem takeOperand_of_length_le (f : Format) (bs : List Byte) (h : f.length ≤ bs.length + 1) :
    ∃ o rest, takeOperand f bs = some (o, rest) := by
  match f, bs, h with
  | .op, bs, _ => exact ⟨.none, bs, rfl⟩
  | .opN8, b :: bs, _ => exact ⟨.byte b, bs, rfl⟩
  | .opN16, lo :: hi :: bs, _ => exact ⟨.word (joinBytes hi lo), bs, rfl⟩
  | .opN8, [], h | .opN16, [], h | .opN16, [_], h => simp [Format.length] at h

/-- Settles O7: an unknown opcode is rejected before any operand is taken, and a long enough sequence has the operand. -/
theorem decodeLooksAtOpcodeOnly : Obligations.DecodeLooksAtOpcodeOnly := by
  unfold Obligations.DecodeLooksAtOpcodeOnly
  intro op bs
  refine ⟨decode_cons_none, fun i hop hlen => ?_⟩
  obtain ⟨o, rest, htake⟩ := takeOperand_of_length_le i.format bs hlen
  exact ⟨o, rest, by rw [decode_cons_some hop, htake, Option.elim_some]⟩

/-! ### The opcode map, its field reading and its gaps (R53 to R55, R58, R60) -/

/-- Settles O1: each byte written out in bits is the opcode byte of its instruction. -/
theorem opcodeBytesOfEveryForm : Obligations.OpcodeBytesOfEveryForm := by
  unfold Obligations.OpcodeBytesOfEveryForm
  simp only [decodeOpcode_eq_some_iff]
  decide

/-- The 256 opcode bytes in ascending order. -/
def opcodeBytes : List Byte := (List.finRange 256).map BitVec.ofFin

@[simp] theorem mem_opcodeBytes (op : Byte) : op ∈ opcodeBytes :=
  List.mem_map.mpr ⟨op.toFin, List.mem_finRange _, rfl⟩

theorem opcodeBytes_nodup : opcodeBytes.Nodup :=
  (List.nodup_finRange 256).map fun _ _ h => congrArg BitVec.toFin h

/-- The list of R60 is what the table of R58 leaves out of the 256 bytes, in ascending order. -/
theorem unknownOpcodes_eq_filter : unknownOpcodes = opcodeBytes.filter (fun op => decodeOpcode op = none) := by
  decide +kernel

/-- Decode fails exactly on the bytes of R60's list. -/
theorem decodeOpcode_eq_none_iff (op : Byte) : decodeOpcode op = none ↔ op ∈ unknownOpcodes := by
  simp [unknownOpcodes_eq_filter]

/-- Settles O5: the list is what is left of the 256 different bytes when those of the table are taken out. -/
theorem unknownOpcodesAreTheListed132 : Obligations.UnknownOpcodesAreTheListed132 := by
  unfold Obligations.UnknownOpcodesAreTheListed132
  refine ⟨decodeOpcode_eq_none_iff, rfl, ?_⟩
  rw [unknownOpcodes_eq_filter]
  exact opcodeBytes_nodup.filter _

/-- The fields of a byte outside the table name no form. -/
theorem decodeFields_eq_none : ∀ op : Byte, decodeOpcode op = none → decodeFields op = none := by
  decide +kernel

/-- Settles O4: a byte with a table entry is an opcode byte, and the fields of any other byte name no form. -/
theorem fieldReadingGivesOpcodeMap : Obligations.FieldReadingGivesOpcodeMap := by
  unfold Obligations.FieldReadingGivesOpcodeMap
  intro op
  cases hop : decodeOpcode op with
  | none => exact (decodeFields_eq_none op hop).symm
  | some i =>
    obtain rfl := (decodeOpcode_eq_some_iff op i).mp hop
    exact (Laws.Encoding.fields_round_trip i).symm

/-! ### The admitted forms are the rows of the table (R66, R90) -/

@[simp] theorem Instr.ofAdd_form (r : Reg) : (Instr.ofAdd r).form = .add r := by cases r <;> rfl
@[simp] theorem Instr.ofSub_form (r : Reg) : (Instr.ofSub r).form = .sub r := by cases r <;> rfl
@[simp] theorem Instr.ofInc_form (r : Reg) : (Instr.ofInc r).form = .inc8 r := by cases r <;> rfl
@[simp] theorem Instr.ofDec_form (r : Reg) : (Instr.ofDec r).form = .dec8 r := by cases r <;> rfl
@[simp] theorem Instr.ofIncPair_form (p : Pair) : (Instr.ofIncPair p).form = .inc16 p := by cases p <;> rfl
@[simp] theorem Instr.ofDecPair_form (p : Pair) : (Instr.ofDecPair p).form = .dec16 p := by cases p <;> rfl
@[simp] theorem Instr.ofLdReg_form (r r' : Reg) : (Instr.ofLdReg r r').form = .ld8 (.reg r) (.reg r') := by
  cases r <;> cases r' <;> rfl
@[simp] theorem Instr.ofLdImm_form (r : Reg) : (Instr.ofLdImm r).form = .ld8 (.reg r) .imm8 := by cases r <;> rfl
@[simp] theorem Instr.ofLdMemHl_form (r : Reg) : (Instr.ofLdMemHl r).form = .ld8 (.reg r) (.memAt .hl) := by
  cases r <;> rfl
@[simp] theorem Instr.ofLdPairImm_form (p : Pair) : (Instr.ofLdPairImm p).form = .ld16 (.pair p) .imm16 := by
  cases p <;> rfl
@[simp] theorem Instr.ofJp_form (cc : Option Cond) : (Instr.ofJp cc).form = .jp cc := by
  rcases cc with _ | (_ | _ | _ | _) <;> rfl
@[simp] theorem Instr.ofJr_form (cc : Option Cond) : (Instr.ofJr cc).form = .jr cc := by
  rcases cc with _ | (_ | _ | _ | _) <;> rfl

/-- The row of the table an admitted form stands in (R58, R66). -/
def Form.row : (f : Form) → f.admitted = true → { i : Instr // i.form = f }
  | .add r, _ => ⟨.ofAdd r, Instr.ofAdd_form r⟩
  | .sub r, _ => ⟨.ofSub r, Instr.ofSub_form r⟩
  | .inc8 r, _ => ⟨.ofInc r, Instr.ofInc_form r⟩
  | .dec8 r, _ => ⟨.ofDec r, Instr.ofDec_form r⟩
  | .inc16 p, _ => ⟨.ofIncPair p, Instr.ofIncPair_form p⟩
  | .dec16 p, _ => ⟨.ofDecPair p, Instr.ofDecPair_form p⟩
  | .ld8 (.reg r) (.reg r'), _ => ⟨.ofLdReg r r', Instr.ofLdReg_form r r'⟩
  | .ld8 (.reg r) .imm8, _ => ⟨.ofLdImm r, Instr.ofLdImm_form r⟩
  | .ld8 (.reg r) (.memAt .hl), _ => ⟨.ofLdMemHl r, Instr.ofLdMemHl_form r⟩
  | .ld8 (.reg .a) (.memAt .bc), _ => ⟨.ldAMemBc, rfl⟩
  | .ld8 (.reg .a) (.memAt .de), _ => ⟨.ldAMemDe, rfl⟩
  | .ld8 (.memAt .hl) (.reg r), _ => ⟨.ofStMemHl r, Instr.ofStMemHl_form r⟩
  | .ld8 (.memAt .bc) (.reg .a), _ => ⟨.ldMemBcA, rfl⟩
  | .ld8 (.memAt .de) (.reg .a), _ => ⟨.ldMemDeA, rfl⟩
  | .ld8 (.memAt .hl) .imm8, _ => ⟨.ldMemHlN8, rfl⟩
  | .ld16 (.pair p) .imm16, _ => ⟨.ofLdPairImm p, Instr.ofLdPairImm_form p⟩
  | .ld16 .sp .imm16, _ => ⟨.ldSpN16, rfl⟩
  | .ld16 .sp (.pair .hl), _ => ⟨.ldSpHl, rfl⟩
  | .jp cc, _ => ⟨.ofJp cc, Instr.ofJp_form cc⟩
  | .jr cc, _ => ⟨.ofJr cc, Instr.ofJr_form cc⟩

/-- The row of a form is the only instruction that has it. -/
theorem Form.row_eq {f : Form} (hf : f.admitted = true) {i : Instr} (hi : i.form = f) : (f.row hf).val = i := by
  subst hi
  cases i <;> rfl

/-- No two rows have the same form (R66). -/
theorem Instr.form_injective : Function.Injective Instr.form := by
  intro i j h
  calc i = (j.form.row (Instr.form_admitted j)).val := (Form.row_eq _ h).symm
    _ = j := Form.row_eq _ rfl

/-- The admitted forms are the forms of the rows (R66, R90). -/
theorem Form.admitted_iff_exists_instr (f : Form) : f.admitted = true ↔ ∃ i : Instr, i.form = f := by
  constructor
  · intro h
    exact ⟨f.row h, (f.row h).property⟩
  · rintro ⟨i, rfl⟩
    exact Instr.form_admitted i

/-- Settles O6: `Form.row` names the row of every admitted form, and `Form.row_eq` says that it is the only one. -/
theorem admittedFormsAreTheTableRows : Obligations.AdmittedFormsAreTheTableRows := by
  unfold Obligations.AdmittedFormsAreTheTableRows
  exact ⟨Form.admitted_iff_exists_instr, fun _ _ h => Instr.form_injective h⟩

end Sys2Proof

namespace Sys2Proof.Machine

/-! ### Arithmetic in the integers of the spec's pseudocode (R67 to R76) -/

/-- An instruction runs the shared operation of the form it is known to have. -/
theorem exec_of_form {i : Instr} {f : Form} (h : i.form = f) (s : State) : exec i s = .next (Form.run f s) := by
  rw [exec_eq_run, h]

/-- The 8-bit difference as the integer remainder of R69 and R74. -/
theorem sub8_toNat_int (a v : Byte) : ((sub8 a v).toNat : Int) = ((a.toNat : Int) - v.toNat) % 256 := by
  rw [sub8_toNat]
  omega

/-- The wrapping decrement as the integer remainder of R73 and R74. -/
theorem wordDec_toNat_int (a : Word) : ((wordDec a).toNat : Int) = ((a.toNat : Int) - 1) % 65536 := by
  rw [wordDec_toNat]
  omega

/-- Settles O14: `addA` leaves the 8-bit sum in A and its flags, which `addFlags_iff` reads as comparisons. -/
theorem addWritesSumAndFlags : Obligations.AddWritesSumAndFlags := by
  unfold Obligations.AddWritesSumAndFlags
  intro r s
  obtain ⟨hreg, hflags, -, hpc, -⟩ := addA_spec r s
  have ha : (addA r s).a = add8 s.a (s.getReg r) := hreg .a
  obtain ⟨hz, hn, hh, hc⟩ := addFlags_iff s.a (s.getReg r)
  refine ⟨addA r s, exec_of_form (Instr.ofAdd_form r) s, ?_⟩
  rw [ha, hflags, hpc]
  exact ⟨add8_toNat _ _, hz, hn, hh, hc, addrAdd_toNat _ _⟩

/-- Settles O15: `subA` leaves the 8-bit difference in A and its flags, H and C being borrows. -/
theorem subWritesDifferenceAndFlags : Obligations.SubWritesDifferenceAndFlags := by
  unfold Obligations.SubWritesDifferenceAndFlags
  intro r s
  obtain ⟨hreg, hflags, -, hpc, -⟩ := subA_spec r s
  have ha : (subA r s).a = sub8 s.a (s.getReg r) := hreg .a
  obtain ⟨hz, hn, hh, hc⟩ := subFlags_iff s.a (s.getReg r)
  refine ⟨subA r s, exec_of_form (Instr.ofSub_form r) s, ?_⟩
  rw [ha, hflags, hpc]
  exact ⟨sub8_toNat_int _ _, hz, hn, hh, hc, addrAdd_toNat _ _⟩

/-- Settles O16: `incReg` is the 8-bit sum with 1, and its flags take C from the old flags. -/
theorem incRegWritesResultKeepsCarry : Obligations.IncRegWritesResultKeepsCarry := by
  unfold Obligations.IncRegWritesResultKeepsCarry
  intro r s
  obtain ⟨hreg, hflags, -, hpc, -⟩ := incReg_spec r s
  have hr : (incReg r s).getReg r = add8 (s.getReg r) 1 := (hreg r).trans (if_pos rfl)
  obtain ⟨hz, hn, hh, hc⟩ := incFlags_iff s.flags (s.getReg r)
  refine ⟨incReg r s, exec_of_form (Instr.ofInc_form r) s, ?_⟩
  rw [hr, hflags, hpc]
  exact ⟨add8_toNat _ _, hz, hn, hh, hc, addrAdd_toNat _ _⟩

/-- Settles O17: `decReg` is the 8-bit difference with 1, and its flags take C from the old flags. -/
theorem decRegWritesResultKeepsCarry : Obligations.DecRegWritesResultKeepsCarry := by
  unfold Obligations.DecRegWritesResultKeepsCarry
  intro r s
  obtain ⟨hreg, hflags, -, hpc, -⟩ := decReg_spec r s
  have hr : (decReg r s).getReg r = sub8 (s.getReg r) 1 := (hreg r).trans (if_pos rfl)
  obtain ⟨hz, hn, hh, hc⟩ := decFlags_iff s.flags (s.getReg r)
  refine ⟨decReg r s, exec_of_form (Instr.ofDec_form r) s, ?_⟩
  rw [hr, hflags, hpc]
  exact ⟨sub8_toNat_int _ _, hz, hn, hh, hc, addrAdd_toNat _ _⟩

/-- The pair `INC rr` names reads as the wrapped sum (R72). -/
@[simp] theorem incPair_getPair (p : Pair) (s : State) : (incPair p s).getPair p = addrAdd (s.getPair p) 1 := by
  rw [State.getPair_congr (incPair_spec p s).1, State.setPair_getPair_same]

/-- The pair `DEC rr` names reads as the wrapped difference (R73). -/
@[simp] theorem decPair_getPair (p : Pair) (s : State) : (decPair p s).getPair p = wordDec (s.getPair p) := by
  rw [State.getPair_congr (decPair_spec p s).1, State.setPair_getPair_same]

/-- Settles O18: the halves are those of the pair `incPair` leaves, and `incPair` writes no flag. -/
theorem incPairAddsOneNoFlags : Obligations.IncPairAddsOneNoFlags := by
  unfold Obligations.IncPairAddsOneNoFlags
  intro p s
  obtain ⟨-, hflags, -, hpc, -⟩ := incPair_spec p s
  have hpair : ((incPair p s).getPair p).toNat = ((s.getPair p).toNat + 1) % 65536 := by
    rw [incPair_getPair, addrAdd_toNat]
  refine ⟨incPair p s, exec_of_form (Instr.ofIncPair_form p) s, hpair, ?_, hflags, ?_⟩
  · rw [← State.getPair_toNat, hpair]
  · rw [hpc, addrAdd_toNat]

/-- Settles O19: the halves are those of the pair `decPair` leaves, and `decPair` writes no flag. -/
theorem decPairSubtractsOneNoFlags : Obligations.DecPairSubtractsOneNoFlags := by
  unfold Obligations.DecPairSubtractsOneNoFlags
  intro p s
  obtain ⟨-, hflags, -, hpc, -⟩ := decPair_spec p s
  have hpair : (((decPair p s).getPair p).toNat : Int) = (((s.getPair p).toNat : Int) - 1) % 65536 := by
    rw [decPair_getPair, wordDec_toNat_int]
  refine ⟨decPair p s, exec_of_form (Instr.ofDecPair_form p) s, hpair, ?_, hflags, ?_⟩
  · rw [← hpair, State.getPair_toNat, Nat.cast_add, Nat.cast_mul, Nat.cast_ofNat]
  · rw [hpc, addrAdd_toNat]

/-! ### The frame of arithmetic (R14, R25, R67, R72, R73) -/

/-- A form of 8-bit arithmetic is no store. -/
theorem Form.isStore_of_isArith8 {f : Form} (h : f.isArith8 = true) : f.isStore = false := by
  cases hs : f.isStore with
  | false => rfl
  | true =>
    obtain ⟨p, v, rfl⟩ := Form.isStore_iff.mp hs
    cases h

/-- A form of 8-bit arithmetic is no load of SP. -/
theorem Form.ne_spLoad_of_isArith8 {f : Form} (h : f.isArith8 = true) (v : LoadSource16) : f ≠ .ld16 .sp v := by
  rintro rfl
  cases h

/-- An 8-bit arithmetic instruction that writes no register but `dst` leaves all others, SP and memory (R14, R67). -/
theorem exec_arith8_frame {i : Instr} {dst : Reg} (hi : i.form.isArith8 = true)
    (hdst : ∀ q, q ≠ dst → i.form.writesReg q = false) (s : State) :
    ∃ t, exec i s = .next t ∧ (∀ q, q ≠ dst → t.getReg q = s.getReg q) ∧ t.sp = s.sp ∧
      (∀ x, t.readByte x = s.readByte x) :=
  ⟨_, exec_eq_run i s, fun q hq => Form.run_getReg (hdst q hq) s, Form.run_sp (Form.ne_spLoad_of_isArith8 hi) s,
    State.readByte_congr (Form.run_mem (Form.isStore_of_isArith8 hi) s)⟩

/-- Settles O34: the destination of ADD and SUB is A, that of INC and DEC the operand. -/
theorem byteArithmeticFrame : Obligations.ByteArithmeticFrame := by
  unfold Obligations.ByteArithmeticFrame
  intro r s
  refine ⟨exec_arith8_frame ?_ ?_ s, exec_arith8_frame ?_ ?_ s, exec_arith8_frame ?_ ?_ s, exec_arith8_frame ?_ ?_ s⟩ <;>
    simp [Form.isArith8, Form.writesReg]

/-- A register is a half of a pair exactly when it is its high or its low one (R16). -/
theorem Pair.has_eq_false_iff (p : Pair) (q : Reg) : p.has q = false ↔ q ≠ hiReg p ∧ q ≠ loReg p := by
  cases p <;> cases q <;> decide

/-- Settles O35: the three forms write the registers of their pair, no flag, not SP and no memory. -/
theorem pairArithmeticAndLoadFrame : Obligations.PairArithmeticAndLoadFrame := by
  unfold Obligations.PairArithmeticAndLoadFrame
  intro p i s hi
  obtain ⟨hwrites, hflags, hsp, hstore⟩ : (∀ q, i.form.writesReg q = p.has q) ∧ i.form.isArith8 = false ∧
      (∀ v, i.form ≠ .ld16 .sp v) ∧ i.form.isStore = false := by
    rcases hi with rfl | rfl | rfl <;> simp [Form.writesReg, Form.isArith8, Form.isStore]
  refine ⟨_, exec_eq_run i s, fun q hhi hlo => Form.run_getReg ?_ s, Form.run_flags hflags s, Form.run_sp hsp s,
    State.readByte_congr (Form.run_mem hstore s)⟩
  rw [hwrites, Pair.has_eq_false_iff]
  exact ⟨hhi, hlo⟩

/-! ### Corner cases of the flags (R69, R76) -/

/-- A byte less itself is zero (R69, corner case). -/
@[simp] theorem sub8_self (v : Byte) : sub8 v v = 0 := by
  simp [sub8]

/-- A byte less itself: Z and N, no borrow (R69, corner case). -/
@[simp] theorem subFlags_self (v : Byte) : subFlags v v = { z := true, n := true, h := false, c := false } := by
  simp [subFlags]

/-- Settles O20: with A as the operand, difference and flags do not depend on the value of A. -/
theorem subSelfClearsA : Obligations.SubSelfClearsA := by
  unfold Obligations.SubSelfClearsA
  intro s
  obtain ⟨hreg, hflags, -⟩ := subA_spec .a s
  refine ⟨subA .a s, exec_of_form rfl s, ?_, ?_⟩
  · calc (subA .a s).a = sub8 s.a s.a := hreg .a
      _ = 0x00 := sub8_self s.a
  · calc (subA .a s).flags.toByte = (subFlags s.a s.a).toByte := congrArg Flags.toByte hflags
      _ = 0xC0 := by rw [subFlags_self]; decide

/-- Settles O42: whatever flags an instruction leaves, they pack above a zero nibble. -/
theorem flagsByteLowNibbleStaysZero : Obligations.FlagsByteLowNibbleStaysZero := by
  unfold Obligations.FlagsByteLowNibbleStaysZero
  intro i s
  exact ⟨_, exec_eq_run i s, Flags.toByte_and_lowNibble _⟩

end Sys2Proof.Machine

namespace Sys2Proof.Machine

/-! ### Loads between registers, immediates and memory (R77 to R89) -/

/-- The frame of an 8-bit load into a register: every other register, flags, SP and every byte (R77). The source
does not matter. -/
theorem exec_ld8Reg_frame {i : Instr} {r : Reg} {v : LoadSource} (hi : i.form = .ld8 (.reg r) v) (s : State) :
    ∃ t, exec i s = .next t ∧ (∀ q, q ≠ r → t.getReg q = s.getReg q) ∧ t.flags = s.flags ∧ t.sp = s.sp ∧
      (∀ x, t.readByte x = s.readByte x) :=
  ⟨_, exec_of_form hi s, fun _ hq => Form.run_getReg (f := .ld8 (.reg r) v) (beq_false_of_ne hq) s,
    Form.run_flags rfl s, Form.run_sp (by simp) s, State.readByte_congr (Form.run_mem rfl s)⟩

/-- Settles O36: each of the 16 instructions has a form whose target is a register. -/
theorem byteLoadFrame : Obligations.ByteLoadFrame := by
  unfold Obligations.ByteLoadFrame
  refine ⟨fun r i s hi => ?_, fun i s hi => ?_⟩
  · obtain rfl | rfl := hi
    · exact exec_ld8Reg_frame (Instr.ofLdImm_form r) s
    · exact exec_ld8Reg_frame (Instr.ofLdMemHl_form r) s
  · obtain rfl | rfl := hi
    · exact exec_ld8Reg_frame rfl s
    · exact exec_ld8Reg_frame rfl s

/-- Settles O21: `loadReg` puts the source's old value in the destination and writes nothing else but PC. -/
theorem loadRegCopiesReg : Obligations.LoadRegCopiesReg := by
  unfold Obligations.LoadRegCopiesReg
  intro r r' s
  obtain ⟨hreg, hflags, hsp, hpc, hmem⟩ := loadReg_spec r r' s
  refine ⟨loadReg r r' s, exec_of_form (Instr.ofLdReg_form r r') s, (hreg r).trans (if_pos rfl),
    fun q hq => (hreg q).trans (if_neg hq), hflags, hsp, State.readByte_congr hmem, ?_⟩
  rw [hpc, addrAdd_toNat]

/-- Settles O22: `loadImm` puts the fetched byte in the destination. -/
theorem loadImmediateByte : Obligations.LoadImmediateByte := by
  unfold Obligations.LoadImmediateByte
  intro r s
  obtain ⟨hreg, -, -, hpc, -⟩ := loadImm_spec r s
  refine ⟨loadImm r s, exec_of_form (Instr.ofLdImm_form r) s, (hreg r).trans (if_pos rfl), ?_⟩
  rw [hpc, addrAdd_toNat]

/-- A load from memory puts the byte at the pair's old address in the register, also in a half of that pair
(R80, R83, R84). -/
theorem exec_loadMem {i : Instr} {r : Reg} {p : Pair} (hi : i.form = .ld8 (.reg r) (.memAt p)) (s : State) :
    ∃ t, exec i s = .next t ∧ t.getReg r = s.readByte (s.getPair p) ∧ t.pc.toNat = (s.pc.toNat + 1) % 65536 := by
  obtain ⟨hreg, -, -, hpc, -⟩ := loadMem_spec r p s
  refine ⟨loadMem r p s, exec_of_form hi s, (hreg r).trans (if_pos rfl), ?_⟩
  rw [hpc, addrAdd_toNat]

/-- A store of a register puts its value at the pair's address (R81, R85, R86). -/
theorem exec_storeReg {i : Instr} {p : Pair} {r : Reg} (hi : i.form = .ld8 (.memAt p) (.reg r)) (s : State) :
    ∃ t, exec i s = .next t ∧ t.readByte (s.getPair p) = s.getReg r ∧ t.pc.toNat = (s.pc.toNat + 1) % 65536 := by
  obtain ⟨-, -, -, hpc, -⟩ := storeReg_spec p r s
  refine ⟨storeReg p r s, exec_of_form hi s, storeReg_readByte_same p r s, ?_⟩
  rw [hpc, addrAdd_toNat]

/-- Settles O23: the loads from memory at HL. -/
theorem loadFromHl : Obligations.LoadFromHl := by
  unfold Obligations.LoadFromHl
  exact fun r s => exec_loadMem (Instr.ofLdMemHl_form r) s

/-- Settles O24: the stores of a register at HL. -/
theorem storeRegAtHl : Obligations.StoreRegAtHl := by
  unfold Obligations.StoreRegAtHl
  exact fun r s => exec_storeReg (Instr.ofStMemHl_form r) s

/-- After `LD (HL),n` the byte at the pair's address is the one fetched before the write (R82). -/
@[simp] theorem storeImm_readByte_same (p : Pair) (s : State) :
    (storeImm p s).readByte (s.getPair p) = s.fetchN8 := by
  rw [storeImm, State.advance_readByte, State.readByte_writeByte_same]

/-- Settles O25: the immediate is read from the state before the write. -/
theorem storeImmediateAtHl : Obligations.StoreImmediateAtHl := by
  unfold Obligations.StoreImmediateAtHl
  intro s
  obtain ⟨-, -, -, hpc, -⟩ := storeImm_spec .hl s
  refine ⟨storeImm .hl s, exec_of_form rfl s, storeImm_readByte_same .hl s, ?_⟩
  rw [hpc, addrAdd_toNat]

/-- Settles O26: loads from memory and stores of a register with BC or DE as the pair and A as the register. -/
theorem accumulatorLoadsAndStoresAtBcDe : Obligations.AccumulatorLoadsAndStoresAtBcDe := by
  unfold Obligations.AccumulatorLoadsAndStoresAtBcDe
  exact fun s => ⟨exec_loadMem (r := .a) (p := .bc) rfl s, exec_loadMem (r := .a) (p := .de) rfl s,
    exec_storeReg (r := .a) (p := .bc) rfl s, exec_storeReg (r := .a) (p := .de) rfl s⟩

/-- The 16-bit immediate is the byte at PC + 2 above the byte at PC + 1 (R56, D12). -/
theorem State.fetchN16_eq_joinBytes (s : State) :
    s.fetchN16 = joinBytes (s.readByte (addrAdd s.pc 2)) (s.readByte (addrAdd s.pc 1)) := by
  rw [State.fetchN16, State.readWord, addrAdd_addrAdd]

/-- The high half of a pair after a write to it (R16). -/
@[simp] theorem State.setPair_getReg_hiReg (s : State) (p : Pair) (v : Word) :
    (s.setPair p v).getReg (hiReg p) = hiByte v := by
  rw [State.setPair_getReg, if_pos rfl]

/-- The low half of a pair after a write to it; it is another register than the high half (R16). -/
@[simp] theorem State.setPair_getReg_loReg (s : State) (p : Pair) (v : Word) :
    (s.setPair p v).getReg (loReg p) = loByte v := by
  have hne : loReg p ≠ hiReg p := by cases p <;> decide
  rw [State.setPair_getReg, if_neg hne, if_pos rfl]

/-- Settles O27: the halves of the pair are the two bytes the fetched word is joined from. -/
theorem loadPairImmediateWord : Obligations.LoadPairImmediateWord := by
  unfold Obligations.LoadPairImmediateWord
  intro p s
  obtain ⟨hreg, -, -, hpc, -⟩ := loadPairImm_spec p s
  refine ⟨loadPairImm p s, exec_of_form (Instr.ofLdPairImm_form p) s, ?_, ?_, ?_⟩
  · rw [hreg, State.setPair_getReg_loReg, State.fetchN16_eq_joinBytes, loByte_joinBytes]
  · rw [hreg, State.setPair_getReg_hiReg, State.fetchN16_eq_joinBytes, hiByte_joinBytes]
  · rw [hpc, addrAdd_toNat]

/-- Settles O28: SP takes the fetched word or the word of HL, each in numbers. -/
theorem stackPointerLoads : Obligations.StackPointerLoads := by
  unfold Obligations.StackPointerLoads
  intro s
  constructor
  · obtain ⟨-, -, hsp, hpc, -⟩ := loadSpImm_spec s
    refine ⟨loadSpImm s, exec_of_form rfl s, ?_, ?_⟩
    · rw [hsp, State.fetchN16, State.readWord_toNat, addrAdd_addrAdd]
    · rw [hpc, addrAdd_toNat]
  · obtain ⟨-, -, hsp, hpc, -⟩ := loadSpPair_spec .hl s
    refine ⟨loadSpPair .hl s, exec_of_form rfl s, ?_, ?_⟩
    · rw [hsp]
      exact State.getPair_toNat s .hl
    · rw [hpc, addrAdd_toNat]

/-- The frame of a load of SP: every register, the flags and every byte (R77, R88, R89). -/
theorem exec_ld16Sp_frame {i : Instr} {v : LoadSource16} (hi : i.form = .ld16 .sp v) (s : State) :
    ∃ t, exec i s = .next t ∧ (∀ q, t.getReg q = s.getReg q) ∧ t.flags = s.flags ∧
      (∀ x, t.readByte x = s.readByte x) :=
  ⟨_, exec_of_form hi s, fun _ => Form.run_getReg rfl s, Form.run_flags rfl s,
    State.readByte_congr (Form.run_mem rfl s)⟩

/-- Settles O38: both instructions have a form whose target is SP. -/
theorem stackPointerLoadFrame : Obligations.StackPointerLoadFrame := by
  unfold Obligations.StackPointerLoadFrame
  intro i s hi
  obtain rfl | rfl := hi
  · exact exec_ld16Sp_frame rfl s
  · exact exec_ld16Sp_frame rfl s

end Sys2Proof.Machine

namespace Sys2Proof.Machine

/-! ### Jumps (R27, R91 to R97) -/

/-- The condition NZ holds when Z is false (R91). -/
@[simp] theorem condHolds_nz (f : Flags) : condHolds f .nz = !f.z := rfl
/-- The condition Z holds when Z is true (R91). -/
@[simp] theorem condHolds_z (f : Flags) : condHolds f .z = f.z := rfl
/-- The condition NC holds when C is false (R91). -/
@[simp] theorem condHolds_nc (f : Flags) : condHolds f .nc = !f.c := rfl
/-- The condition C holds when C is true (R91). -/
@[simp] theorem condHolds_c (f : Flags) : condHolds f .c = f.c := rfl

/-- A condition reads no flag but Z and C (R91). -/
theorem condHolds_congr {f g : Flags} (hz : f.z = g.z) (hc : f.c = g.c) (cc : Cond) :
    condHolds f cc = condHolds g cc := by
  cases cc with
  | nz | z => simp [hz]
  | nc | c => simp [hc]

/-- Settles O29: the four rows of the table of conditions, and the two flags they read. -/
theorem conditionsReadZAndCOnly : Obligations.ConditionsReadZAndCOnly := by
  unfold Obligations.ConditionsReadZAndCOnly
  refine ⟨fun f => ⟨?_, Iff.rfl, ?_, Iff.rfl, rfl⟩, fun f g cc hz hc => ⟨rfl, condHolds_congr hz hc cc⟩⟩
  · rw [condHolds_nz, Bool.not_eq_true']
  · rw [condHolds_nc, Bool.not_eq_true']

/-- `JP nn` and `JP cc,nn` run the absolute jump (R92, R93). -/
theorem exec_ofJp (cc : Option Cond) (s : State) : exec (.ofJp cc) s = .next (jumpAbs cc s) :=
  exec_of_form (Instr.ofJp_form cc) s

/-- `JR e` and `JR cc,e` run the relative jump (R94, R95). -/
theorem exec_ofJr (cc : Option Cond) (s : State) : exec (.ofJr cc) s = .next (jumpRel cc s) :=
  exec_of_form (Instr.ofJr_form cc) s

/-- Where an absolute jump goes (R92, R93). -/
theorem jumpAbs_pc (cc : Option Cond) (s : State) :
    (jumpAbs cc s).pc = if jumpTaken s.flags cc then s.fetchN16 else addrAdd s.pc 3 := by
  obtain ⟨-, -, -, hpc, -⟩ := jumpAbs_spec cc s
  exact hpc

/-- Where a relative jump goes (R94, R95). -/
theorem jumpRel_pc (cc : Option Cond) (s : State) :
    (jumpRel cc s).pc = if jumpTaken s.flags cc then s.relTarget else addrAdd s.pc 2 := by
  obtain ⟨-, -, -, hpc, -⟩ := jumpRel_spec cc s
  exact hpc

/-- The 16-bit immediate in numbers, low byte first (R56, D12). -/
theorem State.fetchN16_toNat (s : State) :
    s.fetchN16.toNat = (s.readByte (addrAdd s.pc 1)).toNat + 256 * (s.readByte (addrAdd s.pc 2)).toNat := by
  rw [State.fetchN16, State.readWord_toNat, addrAdd_addrAdd]

/-- Settles O30: taken, PC is the fetched word, and untaken, the address after the three bytes. -/
theorem absoluteJumpTarget : Obligations.AbsoluteJumpTarget := by
  unfold Obligations.AbsoluteJumpTarget
  intro cc s
  refine ⟨jumpAbs cc s, exec_ofJp cc s, ?_⟩
  rw [jumpAbs_pc, apply_ite BitVec.toNat, State.fetchN16_toNat, addrAdd_toNat]

/-- Settles O31: taken, PC is the relative target in the integers, and untaken, the address after the two bytes. -/
theorem relativeJumpTarget : Obligations.RelativeJumpTarget := by
  unfold Obligations.RelativeJumpTarget
  intro cc s
  refine ⟨jumpRel cc s, exec_ofJr cc s, ?_⟩
  rw [jumpRel_pc]
  split
  · exact relTarget_toNat s
  · rw [addrAdd_toNat]
    omega

/-- A jump leaves every register, the flags, SP and memory (R97). -/
theorem Form.run_jump_frame {f : Form} (h : f.isJump = true) (s : State) :
    (∀ q, (Form.run f s).getReg q = s.getReg q) ∧ (Form.run f s).flags = s.flags ∧ (Form.run f s).sp = s.sp ∧
      (Form.run f s).mem = s.mem := by
  match f, h with
  | .jp _, _ | .jr _, _ =>
    exact ⟨fun _ => Form.run_getReg rfl s, Form.run_flags rfl s, Form.run_sp (by simp) s, Form.run_mem rfl s⟩

/-- An absolute jump reads PC, whether it is taken, and its two operand bytes (R97). -/
theorem jumpAbs_pc_congr {cc : Option Cond} {s s' : State} (hpc : s.pc = s'.pc)
    (htaken : jumpTaken s.flags cc = jumpTaken s'.flags cc)
    (hlo : s.readByte (addrAdd s.pc 1) = s'.readByte (addrAdd s'.pc 1))
    (hhi : s.readByte (addrAdd s.pc 2) = s'.readByte (addrAdd s'.pc 2)) :
    (jumpAbs cc s).pc = (jumpAbs cc s').pc := by
  have htarget : s.fetchN16 = s'.fetchN16 := by
    rw [State.fetchN16_eq_joinBytes, State.fetchN16_eq_joinBytes, hlo, hhi]
  rw [jumpAbs_pc, jumpAbs_pc, htaken, htarget, hpc]

/-- A relative jump reads PC, whether it is taken, and its displacement byte (R97). -/
theorem jumpRel_pc_congr {cc : Option Cond} {s s' : State} (hpc : s.pc = s'.pc)
    (htaken : jumpTaken s.flags cc = jumpTaken s'.flags cc)
    (hdisp : s.readByte (addrAdd s.pc 1) = s'.readByte (addrAdd s'.pc 1)) :
    (jumpRel cc s).pc = (jumpRel cc s').pc := by
  have htarget : s.relTarget = s'.relTarget := by
    rw [State.relTarget, State.relTarget, State.fetchN8, State.fetchN8, hdisp, hpc]
  rw [jumpRel_pc, jumpRel_pc, htaken, htarget, hpc]

/-- A form of the table that is no jump leaves PC just past its own bytes (R27). -/
theorem Form.run_pc {f : Form} (hadm : f.admitted = true) (hjump : f.isJump = false) (s : State) :
    (Form.run f s).pc = addrAdd s.pc f.format.length := by
  match f, hadm, hjump with
  | .add r, _, _ => simp [Form.run, addA_spec, Form.format, Format.length]
  | .sub r, _, _ => simp [Form.run, subA_spec, Form.format, Format.length]
  | .inc8 r, _, _ => simp [Form.run, incReg_spec, Form.format, Format.length]
  | .dec8 r, _, _ => simp [Form.run, decReg_spec, Form.format, Format.length]
  | .inc16 p, _, _ => simp [Form.run, incPair_spec, Form.format, Format.length]
  | .dec16 p, _, _ => simp [Form.run, decPair_spec, Form.format, Format.length]
  | .ld8 (.reg r) (.reg r'), _, _ => simp [Form.run, loadReg_spec, Form.format, Format.length]
  | .ld8 (.reg r) .imm8, _, _ => simp [Form.run, loadImm_spec, Form.format, Format.length]
  | .ld8 (.reg r) (.memAt p), _, _ => simp [Form.run, loadMem_spec, Form.format, Format.length]
  | .ld8 (.memAt p) (.reg r), _, _ => simp [Form.run, storeReg_spec, Form.format, Format.length]
  | .ld8 (.memAt p) .imm8, _, _ => simp [Form.run, storeImm_spec, Form.format, Format.length]
  | .ld16 (.pair p) .imm16, _, _ => simp [Form.run, loadPairImm_spec, Form.format, Format.length]
  | .ld16 .sp .imm16, _, _ => simp [Form.run, loadSpImm_spec, Form.format, Format.length]
  | .ld16 .sp (.pair p), _, _ => simp [Form.run, loadSpPair_spec, Form.format, Format.length]

/-- Settles O32: the frame of a jump, what its target depends on, and PC after every other instruction. -/
theorem jumpWritesOnlyPc : Obligations.JumpWritesOnlyPc := by
  unfold Obligations.JumpWritesOnlyPc
  refine ⟨fun i s hjump => ?_, fun cc s s' hpc htaken => ⟨fun hdisp => ?_, fun hlo hhi => ?_⟩, fun i s hjump => ?_⟩
  · obtain ⟨hreg, hflags, hsp, hmem⟩ := Form.run_jump_frame hjump s
    exact ⟨_, exec_eq_run i s, hreg, hflags, hsp, State.readByte_congr hmem⟩
  · exact ⟨_, _, exec_ofJr cc s, exec_ofJr cc s', jumpRel_pc_congr hpc htaken hdisp⟩
  · exact ⟨_, _, exec_ofJp cc s, exec_ofJp cc s', jumpAbs_pc_congr hpc htaken hlo hhi⟩
  · refine ⟨_, exec_eq_run i s, ?_⟩
    rw [Form.run_pc (Instr.form_admitted i) hjump, addrAdd_toNat, Instr.length, Instr.format]

end Sys2Proof.Machine

namespace Sys2Proof.Machine

/-! ### The host's step and the run of n steps (R99 to R104) -/

/-- Settles O8: `step` dispatches on the opcode byte it fetches, and adds nothing around `exec`. -/
theorem stepRunsDecodedInstruction : Obligations.StepRunsDecodedInstruction := by
  unfold Obligations.StepRunsDecodedInstruction
  exact fun _ _ => step_of_decode_some

/-- The host gets the state and the PC after a completed step (R102). -/
theorem hostStep_of_next {s t : State} (h : step s = .next t) : hostStep s = (t, .done t.pc) := by
  simp only [hostStep, h]

/-- The host gets the unchanged state and the fault of a failed step (R103, R115). -/
theorem hostStep_of_fault {s : State} {f : Fault} (h : step s = .fault f) : hostStep s = (s, .error f) := by
  simp only [hostStep, h]

/-- Settles O11: the two branches of decode give the two outcomes. -/
theorem stepHasExactlyTwoOutcomes : Obligations.StepHasExactlyTwoOutcomes := by
  unfold Obligations.StepHasExactlyTwoOutcomes
  intro s
  obtain ⟨hop, hstep⟩ | ⟨i, hop, hstep⟩ := step_cases s
  · exact .inr ⟨hop, hostStep_of_fault hstep⟩
  · exact .inl ⟨i, Form.run i.form s, hop, exec_eq_run i s, hostStep_of_next hstep⟩

/-- After a completed step the rest of the host's run starts at the state it left. -/
theorem core_run_succ_of_next {s t : State} (h : step s = .next t) (n : Nat) :
    Host.Core.run core (n + 1) s = Host.Core.run core n t := by
  have hstep : core.step s = .next t := h
  simp only [Host.Core.run, hstep]

/-- After a completed step `run_steps` goes on from the state it left (R104). -/
theorem runSteps_succ_of_next {s t : State} (h : step s = .next t) (n : Nat) : runSteps (n + 1) s = runSteps n t := by
  simp only [runSteps, h]

/-- A step that fails ends `run_steps` with its fault (R104, D14). -/
theorem runSteps_succ_of_fault {s : State} {f : Fault} (h : step s = .fault f) (n : Nat) :
    runSteps (n + 1) s = (s, .error f) := by
  simp only [runSteps, h]

/-- Settles O50, by induction on the number of steps: a first step that fails ends the run at k = 0, and one that
completes shifts k by one. -/
theorem runStepsStopsAtFirstError : Obligations.RunStepsStopsAtFirstError := by
  unfold Obligations.RunStepsStopsAtFirstError
  intro n
  induction n with
  | zero => exact fun s => .inl ⟨s, rfl, rfl⟩
  | succ n ih =>
    intro s
    obtain ⟨-, hfault⟩ | ⟨i, -, hnext⟩ := step_cases s
    · exact .inr ⟨0, s, _, Nat.succ_pos n, rfl, hfault, runSteps_succ_of_fault hfault n⟩
    · rw [runSteps_succ_of_next hnext]
      obtain ⟨t, hrun, hres⟩ | ⟨k, t, f, hk, hrun, hfault, hres⟩ := ih (Form.run i.form s)
      · exact .inl ⟨t, (core_run_succ_of_next hnext n).trans hrun, hres⟩
      · exact .inr ⟨k + 1, t, f, Nat.succ_lt_succ hk, (core_run_succ_of_next hnext k).trans hrun, hfault, hres⟩

/-! ### Encoded bytes at PC (R52, R56, R99, R101) -/

/-- The handler fetches the operand whose bytes stand after the opcode (R56, D12). -/
theorem State.fetchOperand_of_bytes {s : State} {f : Format} {o : Operand} (hfits : f.fits o = true)
    (hbytes : ∀ k, k < (encodeOperand o).length → some (s.readByte (addrAdd s.pc (k + 1))) = (encodeOperand o)[k]?) :
    s.fetchOperand f = o := by
  match f, o, hfits with
  | .op, .none, _ => rfl
  | .opN8, .byte b, _ =>
    have hb : s.readByte (addrAdd s.pc 1) = b := Option.some.inj (hbytes 0 Nat.one_pos)
    rw [State.fetchOperand, State.fetchN8, hb]
  | .opN16, .word w, _ =>
    have hlo : s.readByte (addrAdd s.pc 1) = loByte w := Option.some.inj (hbytes 0 Nat.two_pos)
    have hhi : s.readByte (addrAdd s.pc 2) = hiByte w := Option.some.inj (hbytes 1 Nat.one_lt_two)
    rw [State.fetchOperand, State.fetchN16_eq_joinBytes, hlo, hhi, joinBytes_hiByte_loByte]

/-- PC plus nothing is PC. -/
@[simp] theorem addrAdd_zero (a : Word) : addrAdd a 0 = a := by
  rw [addrAdd, Nat.add_zero, BitVec.ofNat_toNat, BitVec.setWidth_eq]

/-- Settles O9: the first byte is the instruction's opcode byte, and the bytes after it are its operand's. -/
theorem stepRunsEncodedBytes : Obligations.StepRunsEncodedBytes := by
  unfold Obligations.StepRunsEncodedBytes
  intro s i o hwf hbytes
  have hop : s.fetchOpcode = encodeOpcode i := by
    have hfirst := Option.some.inj (hbytes 0 (Nat.succ_pos _))
    rwa [addrAdd_zero] at hfirst
  constructor
  · exact step_of_decode_some (hop ▸ decodeOpcode_encodeOpcode i)
  · exact State.fetchOperand_of_bytes ((wellFormed_iff i o).mp hwf) fun k hk => hbytes (k + 1) (Nat.succ_lt_succ hk)

/-! ### Program loads (R106, R107) -/

/-- The state a successful program load leaves: the bytes copied from the offset up, nothing else written (R106). -/
def State.copyBytes (s : State) (offset : Word) (bytes : List Byte) : State :=
  { s with mem := Memory.writeBytes s.mem offset.toNat bytes }

@[simp] theorem State.copyBytes_getReg (s : State) (offset : Word) (bytes : List Byte) (r : Reg) :
    (s.copyBytes offset bytes).getReg r = s.getReg r := by cases r <;> rfl

/-- A program that does not fit is refused, with nothing written (R106, R107). -/
theorem loadProgram_of_overflow {bytes : List Byte} {offset : Word} (h : 65536 < offset.toNat + bytes.length)
    (s : State) : loadProgram bytes offset s = (s, .loadOverflow) :=
  if_pos h

/-- A program that fits, exactly or with room, is copied (R106, D15). -/
theorem loadProgram_of_fits {bytes : List Byte} {offset : Word} (h : offset.toNat + bytes.length ≤ 65536)
    (s : State) : loadProgram bytes offset s = (s.copyBytes offset bytes, .ok) :=
  if_neg (Nat.not_lt.mpr h)

/-- A copied byte reads back at its place (R106). -/
theorem State.copyBytes_readByte_inside {bytes : List Byte} {offset x : Word} {k : Nat} (hk : k < bytes.length)
    (hx : x.toNat = offset.toNat + k) (s : State) : bytes[k]? = some ((s.copyBytes offset bytes).readByte x) := by
  have hread : (s.copyBytes offset bytes).readByte x = bytes.getD k Config.unwritten := by
    rw [State.readByte, State.copyBytes, Memory.read_writeBytes, if_pos (by omega), hx, Nat.add_sub_cancel_left]
  rw [hread, List.getElem?_eq_getElem hk, List.getD_eq_getElem _ _ hk]

/-- A byte below or above the copied range is as before (R106). -/
theorem State.copyBytes_readByte_outside {bytes : List Byte} {offset x : Word}
    (hx : x.toNat < offset.toNat ∨ offset.toNat + bytes.length ≤ x.toNat) (s : State) :
    (s.copyBytes offset bytes).readByte x = s.readByte x := by
  rw [State.readByte, State.copyBytes, Memory.read_writeBytes, if_neg (by omega), State.readByte]

/-- Settles O48: the two branches of the bound, and the reads and the frame of the copy. -/
theorem loadProgramCopiesOrRefuses : Obligations.LoadProgramCopiesOrRefuses := by
  unfold Obligations.LoadProgramCopiesOrRefuses
  intro bytes offset s
  refine ⟨fun h => loadProgram_of_overflow h s, fun h => ⟨s.copyBytes offset bytes, loadProgram_of_fits h s, ?_⟩⟩
  exact ⟨fun k x hk hx => State.copyBytes_readByte_inside hk hx s, fun x hx => State.copyBytes_readByte_outside hx s,
    State.copyBytes_getReg s offset bytes, rfl, rfl, rfl⟩

/-- Only a program that does not fit is refused, so a refused one has written nothing (R107). -/
theorem eq_of_loadProgram_overflow {bytes : List Byte} {offset : Word} {s t : State}
    (h : loadProgram bytes offset s = (t, .loadOverflow)) : t = s := by
  obtain hover | hfits := Nat.lt_or_ge 65536 (offset.toNat + bytes.length)
  · rw [loadProgram_of_overflow hover] at h
    exact (congrArg Prod.fst h).symm
  · rw [loadProgram_of_fits hfits] at h
    cases h

/-- Settles O49: ten bytes end past the top from 0xFFF8, and well below it from 0x0100. -/
theorem failingLoadWritesNothing : Obligations.FailingLoadWritesNothing := by
  unfold Obligations.FailingLoadWritesNothing
  refine ⟨fun _ _ _ _ => eq_of_loadProgram_overflow, fun bytes s hlen => ⟨?_, s.copyBytes 0x0100 bytes, ?_, ?_⟩⟩
  · exact loadProgram_of_overflow (by rw [hlen]; decide) s
  · exact loadProgram_of_fits (by rw [hlen]; decide) s
  · intro k hk
    have hx : (addrAdd 0x0100 k).toNat = (0x0100 : Word).toNat + k := by
      rw [addrAdd_toNat]
      exact Nat.mod_eq_of_lt (by change 256 + k < 65536; omega)
    exact State.copyBytes_readByte_inside (hlen ▸ hk) hx s

/-! ### The invariant along the host's moves (R106, R109, R111) -/

/-- A host step keeps the invariant, completed or not. -/
theorem State.Inv.hostStep {s : State} (h : s.Inv) : (hostStep s).1.Inv := by
  obtain ⟨-, hfault⟩ | ⟨i, -, hnext⟩ := step_cases s
  · rwa [hostStep_of_fault hfault]
  · rw [hostStep_of_next hnext]
    exact Form.inv_run i.form h

/-- A program load keeps the invariant: what is copied lies below the top of memory (R106, R107). -/
theorem State.Inv.loadProgram {s : State} (h : s.Inv) (bytes : List Byte) (offset : Word) :
    (loadProgram bytes offset s).1.Inv := by
  obtain hover | hfits := Nat.lt_or_ge 65536 (offset.toNat + bytes.length)
  · rwa [loadProgram_of_overflow hover]
  · rw [loadProgram_of_fits hfits]
    exact Memory.wf_writeBytes bytes s.mem offset.toNat hfits h

/-- A byte write keeps the invariant at every address (R109). -/
theorem State.Inv.writeByte {s : State} (h : s.Inv) (a : Word) (v : Byte) : (s.writeByte a v).Inv :=
  State.wf_writeByte s a v h

/-- A word write is two byte writes, so it keeps the invariant (R38, R109). -/
theorem State.Inv.writeWord {s : State} (h : s.Inv) (a v : Word) : (s.writeWord a v).Inv :=
  (h.writeByte a (loByte v)).writeByte (addrAdd a 1) (hiByte v)

/-- Every move of the host keeps the invariant (D20). -/
theorem State.Inv.hostMove {s : State} (h : s.Inv) (m : HostMove) : (m.apply s).Inv := by
  cases m with
  | step => exact h.hostStep
  | load bytes offset => exact h.loadProgram bytes offset
  | writeByte addr v => exact h.writeByte addr v
  | writeWord addr v => exact h.writeWord addr v

/-- Settles O57, by induction on the moves. -/
theorem hostMovesKeepCanonicalMemory : Obligations.HostMovesKeepCanonicalMemory := by
  unfold Obligations.HostMovesKeepCanonicalMemory
  intro ms
  induction ms with
  | nil => exact fun _ h => h
  | cons m ms ih => exact fun s h => ih (m.apply s) (h.hostMove m)

end Sys2Proof.Machine

namespace Sys2Proof.Machine

/-! ### Exceptions (R113 to R116) -/

/-- Settles O12: every instruction answers the state its form's shared operation gives. -/
theorem everyInstructionAlwaysCompletes : Obligations.EveryInstructionAlwaysCompletes := by
  unfold Obligations.EveryInstructionAlwaysCompletes
  exact fun i s => ⟨Form.run i.form s, exec_eq_run i s⟩

/-- The only fault of a step is the decode error, and only an unknown opcode raises it (R113, R114). -/
theorem step_eq_fault_iff {s : State} {f : Fault} :
    step s = .fault f ↔ decodeOpcode s.fetchOpcode = none ∧ f = .decodeError s.fetchOpcode s.pc := by
  constructor
  · intro h
    obtain ⟨hop, hfault⟩ | ⟨i, -, hnext⟩ := step_cases s
    · rw [hfault] at h
      cases h
      exact ⟨hop, rfl⟩
    · rw [hnext] at h
      cases h
  · rintro ⟨hop, rfl⟩
    exact step_of_decode_none hop

/-- Settles O10: the fault names the byte at PC and PC, and the host gets back the state it had. -/
theorem decodeErrorExactlyOnUnknownOpcode : Obligations.DecodeErrorExactlyOnUnknownOpcode := by
  unfold Obligations.DecodeErrorExactlyOnUnknownOpcode
  exact fun _ _ => ⟨step_eq_fault_iff, hostStep_of_fault⟩

/-- Settles O13: the first of the `n + 1` steps fails, and `run_steps` stops there. -/
theorem decodeErrorRepeatsForever : Obligations.DecodeErrorRepeatsForever := by
  unfold Obligations.DecodeErrorRepeatsForever
  exact fun _ _ => runSteps_succ_of_fault

/-- A move that leaves the state as it is does so any number of times. -/
theorem runMoves_replicate_of_apply_eq {m : HostMove} {s : State} (h : m.apply s = s) (n : Nat) :
    runMoves (List.replicate n m) s = s := by
  induction n with
  | zero => rfl
  | succ n ih => rw [List.replicate_succ, runMoves, h, ih]

/-- A failed step, as a move of the host, leaves the state as it is (R115). -/
theorem apply_step_of_fault {s : State} {f : Fault} (h : step s = .fault f) : HostMove.step.apply s = s := by
  rw [HostMove.apply, hostStep_of_fault h]

/-- The byte the host writes at PC is the one the next step fetches (R99, R109). -/
@[simp] theorem fetchOpcode_hostWriteByte_pc (s : State) (op : Byte) :
    (hostWriteByte s.pc op s).fetchOpcode = op := by
  rw [hostWriteByte, State.fetchOpcode, State.writeByte_pc, State.readByte_writeByte_same]

/-- Settles O60: a failed step is a move that changes nothing, however often it is repeated, and after the mend the
next step fetches the byte the host wrote. -/
theorem hostStepsRepeatDecodeError : Obligations.HostStepsRepeatDecodeError := by
  unfold Obligations.HostStepsRepeatDecodeError
  intro s f h
  refine ⟨fun n => ?_, fun op i hop => step_of_decode_some ?_⟩
  · have hrun := runMoves_replicate_of_apply_eq (apply_step_of_fault h) n
    exact ⟨hrun, by rw [hrun, hostStep_of_fault h]⟩
  · rw [fetchOpcode_hostWriteByte_pc, hop]

end Sys2Proof.Machine

namespace Sys2Proof.Machine

/-! ### The self-jump and the empty core (R133, R138) -/

/-- With displacement -2 the relative target is the opcode's own address, for every PC (R94, D7, D11). -/
theorem State.relTarget_of_fetchN8_eq_neg_two {s : State} (h : s.fetchN8 = 0xFE) : s.relTarget = s.pc := by
  have hdisp : (0xFE : Byte).toInt = -2 := by decide
  have hsum : (s.pc.toNat : Int) + 2 + -2 = s.pc.toNat := by omega
  rw [State.relTarget, h, hdisp, hsum, BitVec.ofInt_natCast, BitVec.ofNat_toNat, BitVec.setWidth_eq]

/-- A taken relative jump to its own address changes nothing, since a jump writes only PC (R97, R138). -/
theorem jumpRel_eq_self {cc : Option Cond} {s : State} (htaken : jumpTaken s.flags cc = true)
    (htarget : s.relTarget = s.pc) : jumpRel cc s = s := by
  rw [jumpRel, if_pos htaken, htarget, State.setPc]

/-- A step on `JR -2` completes in the state it started from (R138). -/
theorem step_selfJump {s : State} (hop : s.fetchOpcode = 0x18) (hdisp : s.fetchN8 = 0xFE) : step s = .next s := by
  have hdecode : decodeOpcode s.fetchOpcode = some (.ofJr none) := by
    rw [hop]
    decide
  rw [step_of_decode_some hdecode, exec_ofJr,
    jumpRel_eq_self rfl (State.relTarget_of_fetchN8_eq_neg_two hdisp)]

/-- A state that steps to itself is the result of every number of steps (R104, D14). -/
theorem runSteps_of_step_eq_self {s : State} (h : step s = .next s) (n : Nat) : runSteps n s = (s, .done s.pc) := by
  induction n with
  | zero => rfl
  | succ n ih => rw [runSteps_succ_of_next h, ih]

/-- Settles O33: `JR -2` steps to the state it started from, so any number of steps does. -/
theorem selfJumpHoldsForever : Obligations.SelfJumpHoldsForever := by
  unfold Obligations.SelfJumpHoldsForever
  exact fun _ hop hdisp => runSteps_of_step_eq_self (step_selfJump hop hdisp)

/-- The first byte a constructed core fetches is the zero memory is filled with, an unknown opcode (R34, R62, R133). -/
theorem step_construct (sp : Word) : step (State.construct sp) = .fault (.decodeError 0x00 0x0000) := by
  have hop : (State.construct sp).fetchOpcode = 0x00 := rfl
  exact step_eq_fault_iff.mpr ⟨by rw [hop]; decide, rfl⟩

/-- Settles O44: the first step already fails, and `run_steps` stops there. -/
theorem emptyCoreReportsDecodeError : Obligations.EmptyCoreReportsDecodeError := by
  unfold Obligations.EmptyCoreReportsDecodeError
  exact fun sp => runSteps_succ_of_fault (step_construct sp)

end Sys2Proof.Machine
